-- ==== Sys2Proof/Word.lean ====
section
/-! DEFINITION. The word types of the instruction-encoder unit (00_scope.md rules R11–R14). -/

namespace Sys2Proof

/-- A byte: bit 0 is its least significant bit, bit 7 its most significant (R11). -/
abbrev Byte := BitVec 8

/-- A bit sequence: the first element is the most significant (R12), but for the result of UNPACKBITS (R173). -/
abbrev BitSeq := List Bool

/-- A byte sequence: the first element is the one emitted first (R13). -/
abbrev ByteSeq := List Byte

end Sys2Proof
end

