-- ==== Sys2Proof/Syntax.lean ====
section
/-! DEFINITION. The vocabulary the ports carry (10_state.md rules R46–R48, R60–R70), the request on the
input ports (R44, R45) and `Instr`, one constructor per row of spec/opcode_table.json. -/

namespace Sys2Proof

/-- The four operand widths (R47). -/
inductive SizeClass where
  | w8 | w16 | w32 | w64
  deriving DecidableEq, Repr

/-- The five operating modes (R46); the mode of a request names the x86 mode the bytes are for (R323). -/
inductive Mode where
  | protectedMode | realAddress | systemManagement | compatibility | bit64
  deriving DecidableEq, Repr

/-- The caller's request that the CPU sign-extend a narrow immediate (R65). -/
inductive SignExtend where
  | noSignExtend | signExtend
  deriving DecidableEq, Repr

/-- The direction bit: `toRM` makes ModR/M.rm the destination, `toReg` ModR/M.reg (R66). -/
inductive Direction where
  | toRM | toReg
  deriving DecidableEq, Repr

/-- From which end a digit of a byte is counted (R11). -/
inductive BitOrder where
  | lsbFirst | msbFirst
  deriving DecidableEq, Repr

/-- The thirteen legacy-prefix kinds (R68). -/
inductive PrefixKind where
  | lock | repne | rep | segCs | segSs | segDs | segEs | segFs | segGs
  | branchNotTaken | branchTaken | opsize | addrsize
  deriving DecidableEq, Repr

/-- The mnemonics the registry of ENCODE covers (R69). -/
inductive Mnemonic where
  | adc | add | aaa | aas | aad | aam
  deriving DecidableEq, Repr

/-- A general-purpose register operand: a code and a declared width (R60); every pair names a register. -/
structure Gpr where
  code : BitVec 3
  cls : SizeClass
  deriving DecidableEq, Repr

/-- A special-purpose register. The set is the OPEN parameter `SPR` of R9 and R64: a value is a name only, and
nothing is known of it but the code `Config.sprCode` gives it. -/
structure SPR where
  name : Nat
  deriving DecidableEq, Repr

/-- A memory reference: the OPEN, opaque parameter `MemRef` of R9 and R70. It is never encoded. -/
structure MemRef where
  handle : Nat
  deriving DecidableEq, Repr

/-- A value of exactly its declared width (R49): an immediate (R48) or a displacement (R225). -/
inductive Sized where
  | b8 (v : BitVec 8)
  | b16 (v : BitVec 16)
  | b32 (v : BitVec 32)
  | b64 (v : BitVec 64)
  deriving DecidableEq, Repr

/-- The `reg` port of the field encoders: a 2-bit kind and a value (R104). `noFile` is kind 3, which names no
register file; a segment register keeps its raw 3-bit code, of which 6 and 7 name nothing (R63). -/
inductive RegPort where
  | gpr (r : Gpr)
  | sreg (code : BitVec 3)
  | spr (r : SPR)
  | noFile
  deriving DecidableEq, Repr

/-- An operand port of ENCODE with its tag (R48, R103). -/
inductive Operand where
  | absent
  | reg (r : Gpr)
  | imm (v : Sized)
  | mem (m : MemRef)
  deriving DecidableEq, Repr

/-- The eight byte lanes of the `bytesIn` port (R45); LE_DES16 and LE_DES32 read the first two and four. -/
structure Bytes8 where
  b0 : Byte
  b1 : Byte
  b2 : Byte
  b3 : Byte
  b4 : Byte
  b5 : Byte
  b6 : Byte
  b7 : Byte
  deriving DecidableEq, Repr

/-- One set of values on the input ports (R44, R45), in the order of R45's table. A port all of whose codes name
a value carries that value; a port with unassigned codes carries the raw code. -/
structure Request where
  /-- The operation selector (R101). -/
  op : BitVec 8
  /-- The target operating mode; codes 5–7 name none (R46). -/
  mode : BitVec 3
  /-- The mnemonic code; 0–5 are assigned (R69). -/
  mn : BitVec 8
  /-- How many operand ports are in use; 3 names no count (R103). -/
  nopnd : BitVec 2
  opnd0 : Operand
  opnd1 : Operand
  se : SignExtend
  dir : Direction
  byte0 : BitVec 8
  byte1 : BitVec 8
  /-- 8-bit two's complement (R167), as are `digit1` and `count`. -/
  digit0 : BitVec 8
  digit1 : BitVec 8
  count : BitVec 8
  order : BitOrder
  bit : BitVec 1
  /-- A bit sequence of length 0–`BSEQ_MAX`. -/
  bseq : BitSeq
  /-- The word to serialise; an operation of width n reads the low n bits. -/
  word : BitVec 64
  bytesIn : Bytes8
  reg : RegPort
  cls : SizeClass
  cond : BitVec 4
  mod : BitVec 2
  regf : BitVec 3
  rm : BitVec 3
  scale : BitVec 2
  index : BitVec 3
  base : BitVec 3
  /-- The displacement; the width is named by `cls`, and the low bits of that width are read. -/
  disp : BitVec 64
  rexW : BitVec 1
  rexR : BitVec 1
  rexX : BitVec 1
  rexB : BitVec 1
  /-- The `LPFX_MAX` slots for prefix-kind codes; 13–15 name no kind (R68). -/
  pkinds : List (BitVec 4)
  npk : BitVec 3
  deriving DecidableEq, Repr

/-- One constructor per row of spec/opcode_table.json, in the table's order. The first 27 are the operations of
R101 with the operands each reads; the rest are the forms ENCODE admits (R120), each a request for that form in
a mode `m`. -/
inductive Instr where
  /-- LE_SER16 (R161). -/
  | leSer16 (w : BitVec 16)
  /-- LE_SER32 (R162). -/
  | leSer32 (w : BitVec 32)
  /-- LE_SER64 (R163). -/
  | leSer64 (w : BitVec 64)
  /-- LE_DES16 on two bytes (R164). -/
  | leDes16 (b0 b1 : Byte)
  /-- LE_DES32 on four bytes (R165). -/
  | leDes32 (b0 b1 b2 b3 : Byte)
  /-- LE_DES64 on eight bytes (R166). -/
  | leDes64 (bs : Bytes8)
  /-- GETBIT (R168). -/
  | getbit (b : Byte) (d : Int) (o : BitOrder)
  /-- SETBIT (R169). -/
  | setbit (b : Byte) (d : Int) (v : BitVec 1) (o : BitOrder)
  /-- COPYBIT (R170). -/
  | copybit (src : Byte) (sd : Int) (dst : Byte) (dd : Int) (o : BitOrder)
  /-- COPYBITS (R171). -/
  | copybits (src : Byte) (sd : Int) (dst : Byte) (dd : Int) (n : Int) (o : BitOrder)
  /-- PACKBITS (R172). -/
  | packbits (bs : BitSeq) (o : BitOrder)
  /-- UNPACKBITS (R173). -/
  | unpackbits (b : Byte) (o : BitOrder)
  /-- ENC_REG3 (R190). -/
  | encReg3 (r : RegPort)
  /-- ENC_SREG2 (R191). -/
  | encSreg2 (r : RegPort)
  /-- OPSIZE_OF (R192). -/
  | opsizeOf (r : RegPort)
  /-- W_BIT (R193). -/
  | wBit (c : SizeClass)
  /-- W_BIT_REG (R194). -/
  | wBitReg (r : RegPort)
  /-- S_BIT (R195). -/
  | sBit (se : SignExtend) (c : SizeClass)
  /-- D_BIT (R196). -/
  | dBit (dir : Direction)
  /-- TTTN (R197). -/
  | tttn (cond : BitVec 4)
  /-- ASM_MODRM (R223). -/
  | asmModrm (mod : BitVec 2) (regf rm : BitVec 3)
  /-- ASM_SIB (R224). -/
  | asmSib (scale : BitVec 2) (index base : BitVec 3)
  /-- ASM_DISP: a displacement of its declared width (R225). -/
  | asmDisp (d : Sized)
  /-- BUILD_REX (R240). -/
  | buildRex (w r x b : BitVec 1)
  /-- LPFX_EMIT: the count port and the kind codes of the slots it uses (R243). -/
  | lpfxEmit (npk : BitVec 3) (kinds : List (BitVec 4))
  /-- LPFX_RECOG (R244). -/
  | lpfxRecog (b : Byte)
  /-- ENCODE: the general request, with its ports as they stand (R260). -/
  | encode (mode : BitVec 3) (mn : BitVec 8) (nopnd : BitVec 2) (o0 o1 : Operand) (se : SignExtend) (dir : Direction)
  /-- ADD AL, imm8: `04 ib` (R269). -/
  | addAlImm8 (m : Mode) (v : BitVec 8)
  /-- ADD AX, imm16: `[66] 05 iw` (R269). -/
  | addAxImm16 (m : Mode) (v : BitVec 16)
  /-- ADD EAX, imm32: `[66] 05 id` (R269). -/
  | addEaxImm32 (m : Mode) (v : BitVec 32)
  /-- ADD RAX, imm32: `48 05 id` (R269). -/
  | addRaxImm32 (m : Mode) (v : BitVec 32)
  /-- ADD r8, imm8: `80 /0 ib` (R269). -/
  | addR8Imm8 (m : Mode) (r : BitVec 3) (v : BitVec 8)
  /-- ADD r16, imm16: `[66] 81 /0 iw` (R269). -/
  | addR16Imm16 (m : Mode) (r : BitVec 3) (v : BitVec 16)
  /-- ADD r32, imm32: `[66] 81 /0 id` (R269). -/
  | addR32Imm32 (m : Mode) (r : BitVec 3) (v : BitVec 32)
  /-- ADD r64, imm32: `48 81 /0 id` (R269). -/
  | addR64Imm32 (m : Mode) (r : BitVec 3) (v : BitVec 32)
  /-- ADD r16, imm8 sign-extended: `[66] 83 /0 ib` (R269). -/
  | addR16Imm8sx (m : Mode) (r : BitVec 3) (v : BitVec 8)
  /-- ADD r32, imm8 sign-extended: `[66] 83 /0 ib` (R269). -/
  | addR32Imm8sx (m : Mode) (r : BitVec 3) (v : BitVec 8)
  /-- ADD r64, imm8 sign-extended: `48 83 /0 ib` (R269). -/
  | addR64Imm8sx (m : Mode) (r : BitVec 3) (v : BitVec 8)
  /-- ADD r/m8, r8 with dir = ToRM: `00 11sssttt`, sss the source (R271). -/
  | addRm8R8 (m : Mode) (dst src : BitVec 3)
  /-- ADD r/m16, r16 with dir = ToRM: `[66] 01 11sssttt`, sss the source (R271). -/
  | addRm16R16 (m : Mode) (dst src : BitVec 3)
  /-- ADD r/m32, r32 with dir = ToRM: `[66] 01 11sssttt`, sss the source (R271). -/
  | addRm32R32 (m : Mode) (dst src : BitVec 3)
  /-- ADD r/m64, r64 with dir = ToRM: `48 01 11sssttt`, sss the source (R271). -/
  | addRm64R64 (m : Mode) (dst src : BitVec 3)
  /-- ADD r8, r/m8 with dir = ToReg: `02 11sssttt`, sss the destination (R271). -/
  | addR8Rm8 (m : Mode) (dst src : BitVec 3)
  /-- ADD r16, r/m16 with dir = ToReg: `[66] 03 11sssttt`, sss the destination (R271). -/
  | addR16Rm16 (m : Mode) (dst src : BitVec 3)
  /-- ADD r32, r/m32 with dir = ToReg: `[66] 03 11sssttt`, sss the destination (R271). -/
  | addR32Rm32 (m : Mode) (dst src : BitVec 3)
  /-- ADD r64, r/m64 with dir = ToReg: `48 03 11sssttt`, sss the destination (R271). -/
  | addR64Rm64 (m : Mode) (dst src : BitVec 3)
  /-- ADC AL, imm8: `14 ib` (R268). -/
  | adcAlImm8 (m : Mode) (v : BitVec 8)
  /-- ADC AX, imm16: `[66] 15 iw` (R268). -/
  | adcAxImm16 (m : Mode) (v : BitVec 16)
  /-- ADC EAX, imm32: `[66] 15 id` (R268). -/
  | adcEaxImm32 (m : Mode) (v : BitVec 32)
  /-- ADC RAX, imm32: `48 15 id` (R268). -/
  | adcRaxImm32 (m : Mode) (v : BitVec 32)
  /-- ADC r8, imm8: `80 /2 ib` (R268). -/
  | adcR8Imm8 (m : Mode) (r : BitVec 3) (v : BitVec 8)
  /-- ADC r16, imm16: `[66] 81 /2 iw` (R268). -/
  | adcR16Imm16 (m : Mode) (r : BitVec 3) (v : BitVec 16)
  /-- ADC r32, imm32: `[66] 81 /2 id` (R268). -/
  | adcR32Imm32 (m : Mode) (r : BitVec 3) (v : BitVec 32)
  /-- ADC r64, imm32: `48 81 /2 id` (R268). -/
  | adcR64Imm32 (m : Mode) (r : BitVec 3) (v : BitVec 32)
  /-- ADC r16, imm8 sign-extended: `[66] 83 /2 ib` (R268). -/
  | adcR16Imm8sx (m : Mode) (r : BitVec 3) (v : BitVec 8)
  /-- ADC r32, imm8 sign-extended: `[66] 83 /2 ib` (R268). -/
  | adcR32Imm8sx (m : Mode) (r : BitVec 3) (v : BitVec 8)
  /-- ADC r64, imm8 sign-extended: `48 83 /2 ib` (R268). -/
  | adcR64Imm8sx (m : Mode) (r : BitVec 3) (v : BitVec 8)
  /-- ADC r/m8, r8 with dir = ToRM: `10 11sssttt`, sss the source (R270). -/
  | adcRm8R8 (m : Mode) (dst src : BitVec 3)
  /-- ADC r/m16, r16 with dir = ToRM: `[66] 11 11sssttt`, sss the source (R270). -/
  | adcRm16R16 (m : Mode) (dst src : BitVec 3)
  /-- ADC r/m32, r32 with dir = ToRM: `[66] 11 11sssttt`, sss the source (R270). -/
  | adcRm32R32 (m : Mode) (dst src : BitVec 3)
  /-- ADC r/m64, r64 with dir = ToRM: `48 11 11sssttt`, sss the source (R270). -/
  | adcRm64R64 (m : Mode) (dst src : BitVec 3)
  /-- ADC r8, r/m8 with dir = ToReg: `12 11sssttt`, sss the destination (R270). -/
  | adcR8Rm8 (m : Mode) (dst src : BitVec 3)
  /-- ADC r16, r/m16 with dir = ToReg: `[66] 13 11sssttt`, sss the destination (R270). -/
  | adcR16Rm16 (m : Mode) (dst src : BitVec 3)
  /-- ADC r32, r/m32 with dir = ToReg: `[66] 13 11sssttt`, sss the destination (R270). -/
  | adcR32Rm32 (m : Mode) (dst src : BitVec 3)
  /-- ADC r64, r/m64 with dir = ToReg: `48 13 11sssttt`, sss the destination (R270). -/
  | adcR64Rm64 (m : Mode) (dst src : BitVec 3)
  /-- AAA: `37` (R291). -/
  | aaa (m : Mode)
  /-- AAS: `3F` (R292). -/
  | aas (m : Mode)
  /-- AAD imm8: `D5 ib` (R293). -/
  | aadImm8 (m : Mode) (base : Byte)
  /-- AAM imm8: `D4 ib` (R294). -/
  | aamImm8 (m : Mode) (base : Byte)
  deriving DecidableEq, Repr

end Sys2Proof
end

