-- ==== Sys2Proof/Config.lean ====
section
/-! DEFINITION. The implementation parameters of 00_scope.md rule R9 and the model's free values. They are fixed
when the unit is built; neither reset nor any request changes them (R10, R343). -/

namespace Sys2Proof

/-- `DEFAULT_OPSIZE` of R9 and R46 as a table: the default operand width of each operating mode, R9's default being
each field's. -/
structure ModeWidths where
  protectedMode : SizeClass := .w32
  realAddress : SizeClass := .w16
  systemManagement : SizeClass := .w16
  compatibility : SizeClass := .w32
  bit64 : SizeClass := .w32
  deriving DecidableEq, Repr

/-- The parameters R9 gives a default, each field's default being R9's. A unit is built with one value of them, which
its state carries (`State.params`); an operation that depends on one takes a `Params`, as R9 asks of a model. -/
structure Params where
  /-- `DEFAULT_OPSIZE`. -/
  modeWidths : ModeWidths := {}
  /-- `LPFX_MAX`: how many slots the `pkinds` port has. -/
  lpfxMax : Nat := 4
  /-- `OUT_MAX`: how many bytes the `bytes_out` port has. -/
  outMax : Nat := 15
  /-- `BSEQ_MAX`: how many bits the `bseq` port carries at most. -/
  bseqMax : Nat := 15
  deriving DecidableEq, Repr

/-- R9's defaults: the unit as built. -/
def Config.params : Params := {}

/-- FREE VALUE: `sprCode : SPR → BitVec 3`, OPEN in R9 and R64; the spec names no member and no code. -/
opaque Config.sprCode : SPR → BitVec 3

/-- FREE VALUE: what the `len` port drives with a word result `v` of `n` bits. R51 defines `len` for byte and bit
results only. It depends on the result alone, since equal requests give equal outputs (R55). -/
opaque Config.wordLen (n v : Nat) : BitVec 4

end Sys2Proof
end

