-- ==== Sys2Proof/Machine/Operands.lean ====
section
/-! DEFINITION. The vocabulary's codes and names (10_state.md rules R46–R48, R60–R69, 30_encoding.md rules
R103 and R104), and the bit and byte sequences every operation is built from (00_scope.md rules R11–R13,
20_memory.md rules R80–R85, 42_byte_assemblers.md rule R220). -/

namespace Sys2Proof

/-! ### Codes of the vocabulary -/

/-- `bits(c)` (R47). -/
def SizeClass.bits : SizeClass → Nat
  | .w8 => 8
  | .w16 => 16
  | .w32 => 32
  | .w64 => 64

/-- The 2-bit port code of a size class (R47). -/
def SizeClass.code : SizeClass → BitVec 2
  | .w8 => 0
  | .w16 => 1
  | .w32 => 2
  | .w64 => 3

/-- The size class of a port code: every 2-bit code names one (R47). -/
def SizeClass.ofCode (c : BitVec 2) : SizeClass :=
  if c = 0 then .w8 else if c = 1 then .w16 else if c = 2 then .w32 else .w64

/-- `DEFAULT_OPSIZE(mode)` (R9, R46). -/
def Params.defaultOpsize (p : Params) : Mode → SizeClass
  | .protectedMode => p.modeWidths.protectedMode
  | .realAddress => p.modeWidths.realAddress
  | .systemManagement => p.modeWidths.systemManagement
  | .compatibility => p.modeWidths.compatibility
  | .bit64 => p.modeWidths.bit64

/-- The 3-bit port code of a mode (R46). -/
def Mode.code : Mode → BitVec 3
  | .protectedMode => 0
  | .realAddress => 1
  | .systemManagement => 2
  | .compatibility => 3
  | .bit64 => 4

/-- The mode a port code names; codes 5, 6 and 7 name none (R46). -/
def Mode.ofCode (c : BitVec 3) : Option Mode :=
  if c = 0 then some .protectedMode
  else if c = 1 then some .realAddress
  else if c = 2 then some .systemManagement
  else if c = 3 then some .compatibility
  else if c = 4 then some .bit64
  else none

/-- The 8-bit port code of a mnemonic (R69). -/
def Mnemonic.code : Mnemonic → BitVec 8
  | .adc => 0
  | .add => 1
  | .aaa => 2
  | .aas => 3
  | .aad => 4
  | .aam => 5

/-- The mnemonic a port code names; every code past 5 names an instruction the registry does not cover (R69). -/
def Mnemonic.ofCode (c : BitVec 8) : Option Mnemonic :=
  if c = 0 then some .adc
  else if c = 1 then some .add
  else if c = 2 then some .aaa
  else if c = 3 then some .aas
  else if c = 4 then some .aad
  else if c = 5 then some .aam
  else none

/-- The port code of the sign-extension request (R65). -/
def SignExtend.code : SignExtend → BitVec 1
  | .noSignExtend => 0
  | .signExtend => 1

/-- The port code of a direction (R66). -/
def Direction.code : Direction → BitVec 1
  | .toRM => 0
  | .toReg => 1

/-- The 4-bit port code of a prefix kind (R68). -/
def PrefixKind.code : PrefixKind → BitVec 4
  | .lock => 0
  | .repne => 1
  | .rep => 2
  | .segCs => 3
  | .segSs => 4
  | .segDs => 5
  | .segEs => 6
  | .segFs => 7
  | .segGs => 8
  | .branchNotTaken => 9
  | .branchTaken => 10
  | .opsize => 11
  | .addrsize => 12

/-- The prefix kind a port code names; 13, 14 and 15 name none (R68). -/
def PrefixKind.ofCode (c : BitVec 4) : Option PrefixKind :=
  if c = 0 then some .lock
  else if c = 1 then some .repne
  else if c = 2 then some .rep
  else if c = 3 then some .segCs
  else if c = 4 then some .segSs
  else if c = 5 then some .segDs
  else if c = 6 then some .segEs
  else if c = 7 then some .segFs
  else if c = 8 then some .segGs
  else if c = 9 then some .branchNotTaken
  else if c = 10 then some .branchTaken
  else if c = 11 then some .opsize
  else if c = 12 then some .addrsize
  else none

/-- `lpfxByte`: the one literal byte of a prefix kind (R68, R242). Two kinds may share a byte (90_conflicts C4). -/
def PrefixKind.byte : PrefixKind → Byte
  | .lock => 0xF0
  | .repne => 0xF2
  | .rep => 0xF3
  | .segCs => 0x2E
  | .segSs => 0x36
  | .segDs => 0x3E
  | .segEs => 0x26
  | .segFs => 0x64
  | .segGs => 0x65
  | .branchNotTaken => 0x2E
  | .branchTaken => 0x3E
  | .opsize => 0x66
  | .addrsize => 0x67

/-- The group column of R68: group g + 1 is written g, as the payload of R50 encodes it. -/
def PrefixKind.group : PrefixKind → Fin 4
  | .lock | .repne | .rep => 0
  | .segCs | .segSs | .segDs | .segEs | .segFs | .segGs | .branchNotTaken | .branchTaken => 1
  | .opsize => 2
  | .addrsize => 3

/-- The prefix group a byte belongs to, if it is a legacy-prefix byte (R244). -/
def prefixGroup (b : Byte) : Option (Fin 4) :=
  if b = 0xF0 ∨ b = 0xF2 ∨ b = 0xF3 then some 0
  else if b = 0x2E ∨ b = 0x36 ∨ b = 0x3E ∨ b = 0x26 ∨ b = 0x64 ∨ b = 0x65 then some 1
  else if b = 0x66 then some 2
  else if b = 0x67 then some 3
  else none

/-- The 2-bit kind of the `reg` port (R104). -/
def RegPort.kind : RegPort → BitVec 2
  | .gpr _ => 0
  | .sreg _ => 1
  | .spr _ => 2
  | .noFile => 3

/-- The 2-bit tag of an operand port (R103). -/
def Operand.tag : Operand → BitVec 2
  | .absent => 0
  | .reg _ => 1
  | .imm _ => 2
  | .mem _ => 3

/-! ### Names (R60, R63, R68, R69; the assembler spellings of R140 and R141) -/

/-- The name of a general-purpose register (R60). -/
def Gpr.asmName (r : Gpr) : String :=
  let row : List String :=
    match r.cls with
    | .w8 => ["AL", "CL", "DL", "BL", "AH", "CH", "DH", "BH"]
    | .w16 => ["AX", "CX", "DX", "BX", "SP", "BP", "SI", "DI"]
    | .w32 => ["EAX", "ECX", "EDX", "EBX", "ESP", "EBP", "ESI", "EDI"]
    | .w64 => ["RAX", "RCX", "RDX", "RBX", "RSP", "RBP", "RSI", "RDI"]
  row.getD r.code.toNat ""

/-- The name of a segment-register code; 6 and 7 name nothing (R63). -/
def segName (c : BitVec 3) : Option String :=
  ["ES", "CS", "SS", "DS", "FS", "GS"][c.toNat]?

/-- The spellings of a prefix kind, its aliases included (R68, R141). -/
def PrefixKind.asmNames : PrefixKind → List String
  | .lock => ["LOCK"]
  | .repne => ["REPNE", "REPNZ"]
  | .rep => ["REP", "REPE", "REPZ"]
  | .segCs => ["SEG_CS"]
  | .segSs => ["SEG_SS"]
  | .segDs => ["SEG_DS"]
  | .segEs => ["SEG_ES"]
  | .segFs => ["SEG_FS"]
  | .segGs => ["SEG_GS"]
  | .branchNotTaken => ["BRANCH_NOT_TAKEN"]
  | .branchTaken => ["BRANCH_TAKEN"]
  | .opsize => ["OPSIZE"]
  | .addrsize => ["ADDRSIZE"]

/-- The spelling of a mnemonic (R69). -/
def Mnemonic.asmName : Mnemonic → String
  | .adc => "ADC"
  | .add => "ADD"
  | .aaa => "AAA"
  | .aas => "AAS"
  | .aad => "AAD"
  | .aam => "AAM"

/-! ### Bit sequences -/

/-- `bitOf` (R11): the bit position a digit names. -/
def BitOrder.bitOf (o : BitOrder) (d : Nat) : Nat :=
  match o with
  | .lsbFirst => d
  | .msbFirst => 7 - d

/-- `bits_n(v)` (R12): the bits of `v`, the most significant first. -/
def bitsOf {n : Nat} (v : BitVec n) : BitSeq :=
  (List.range n).map fun i => v.getLsbD (n - 1 - i)

/-- The byte with bit `p` equal to `v` and every other bit 0. -/
def bitAt (v : Bool) (p : Nat) : Byte :=
  (BitVec.ofBool v).setWidth 8 <<< p

/-- The byte `t` with bit `p` replaced by `v` (the update of R169–R171). -/
def putBit (t : Byte) (p : Nat) (v : Bool) : Byte :=
  (t &&& ~~~ ((1 : Byte) <<< p)) ||| bitAt v p

/-- The sum of R172 over the digits `i`, `i + 1`, …; the digits name distinct bits, so the sum is a bitwise or. -/
def packFrom (o : BitOrder) (i : Nat) : BitSeq → Byte
  | [] => 0
  | v :: vs => bitAt v (o.bitOf i) ||| packFrom o (i + 1) vs

/-- The byte a bit sequence of 8 elements packs to, element `i` being digit `i` (R172). -/
def packBits (o : BitOrder) (s : BitSeq) : Byte :=
  packFrom o 0 s

/-- `pack8` (R220): the first element becomes bit 7 (R83). -/
def pack8 (s : BitSeq) : Byte :=
  packBits .msbFirst s

/-- The eight digits of a byte, in order (R173). -/
def unpackBits (o : BitOrder) (b : Byte) : BitSeq :=
  (List.range 8).map fun i => b.getLsbD (o.bitOf i)

/-! ### Byte sequences -/

/-- `le_n(v)` for n = 8 `k` (R13, R160): the low byte first. -/
def leBytes (k : Nat) {n : Nat} (v : BitVec n) : ByteSeq :=
  (List.range k).map fun j => v.extractLsb' (8 * j) 8

/-- `fromLE_n(bs)` (R160): the bytes lie in distinct bits, so the sum is a bitwise or. -/
def fromLe (n : Nat) : ByteSeq → BitVec n
  | [] => 0
  | b :: bs => b.setWidth n ||| (fromLe n bs <<< 8)

/-- The eight byte lanes as a sequence, lane 0 first. -/
def Bytes8.toList (bs : Bytes8) : ByteSeq :=
  [bs.b0, bs.b1, bs.b2, bs.b3, bs.b4, bs.b5, bs.b6, bs.b7]

/-! ### Values of a declared width (R49) -/

/-- The declared width of a value. -/
def Sized.cls : Sized → SizeClass
  | .b8 _ => .w8
  | .b16 _ => .w16
  | .b32 _ => .w32
  | .b64 _ => .w64

/-- The value of width `c` on the low bits of a 64-bit port. -/
def Sized.ofPort (c : SizeClass) (v : BitVec 64) : Sized :=
  match c with
  | .w8 => .b8 (v.setWidth 8)
  | .w16 => .b16 (v.setWidth 16)
  | .w32 => .b32 (v.setWidth 32)
  | .w64 => .b64 v

/-- A value on the low bits of a 64-bit port, the port's other bits being 0. -/
def Sized.toPort : Sized → BitVec 64
  | .b8 v => v.setWidth 64
  | .b16 v => v.setWidth 64
  | .b32 v => v.setWidth 64
  | .b64 v => v

/-- `le_c(v)` at the value's own declared width, low byte first, with `le_8(v) = [v]` (R262). -/
def Sized.leBytes : Sized → ByteSeq
  | .b8 v => [v]
  | .b16 v => Sys2Proof.leBytes 2 v
  | .b32 v => Sys2Proof.leBytes 4 v
  | .b64 v => Sys2Proof.leBytes 8 v

end Sys2Proof
end

