-- ==== Sys2Proof/Machine/Flags.lean ====
section
/-! DEFINITION. The unit has no status flags and no condition codes of its own, and no operation writes a flag
(10_state.md rule R43). What it knows of flags is the condition-test codes it encodes (R67). -/

namespace Sys2Proof

/-- The mnemonics that spell a condition-test code (R67); the unit works on the code (R197). -/
def condNames (c : BitVec 4) : List String :=
  ([["O"], ["NO"], ["B", "NAE", "C"], ["NB", "AE", "NC"], ["E", "Z"], ["NE", "NZ"], ["BE", "NA"], ["NBE", "A"],
    ["S"], ["NS"], ["P", "PE"], ["NP", "PO"], ["L", "NGE"], ["NL", "GE"], ["LE", "NG"],
    ["NLE", "G"]] : List (List String)).getD c.toNat []

/-- The condition-test code a mnemonic spells, if it spells one (R67). -/
def condOfName (name : String) : Option (BitVec 4) :=
  ((List.range 16).map (BitVec.ofNat 4)).find? fun c => (condNames c).contains name

end Sys2Proof
end

