-- ==== Sys2Proof/Machine/Forms.lean ====
section
/-! DEFINITION. Which row of the opcode table an ENCODE request names: the admitted forms of 30_encoding.md rule
R120, by mnemonic, operand shape and widths (44_alu_encoders.md rules R261, R265, R267, R270 and R271;
45_ascii_adjust_encoders.md rules R291–R294). The mode's legality is no part of the form: a form asked for in a
mode that forbids it is still that form, and its meaning raises ModeViolation. -/

namespace Sys2Proof

/-- The operand ports in use: port i is in use iff i < `nopnd`; `nopnd = 3` names no count (R103). -/
def usedOperands (nopnd : BitVec 2) (o0 o1 : Operand) : Option (List Operand) :=
  if nopnd = 0 then some []
  else if nopnd = 1 then some [o0]
  else if nopnd = 2 then some [o0, o1]
  else none

/-- The ADD register–immediate form of a destination and an immediate (R265, R267, R269). -/
def addImmForm (m : Mode) (d : Gpr) (v : Sized) (se : SignExtend) : Option Instr :=
  match d.cls, v, se with
  | .w8, .b8 x, _ => some (if d.code = 0 then .addAlImm8 m x else .addR8Imm8 m d.code x)
  | .w16, .b16 x, _ => some (if d.code = 0 then .addAxImm16 m x else .addR16Imm16 m d.code x)
  | .w32, .b32 x, _ => some (if d.code = 0 then .addEaxImm32 m x else .addR32Imm32 m d.code x)
  | .w64, .b32 x, _ => some (if d.code = 0 then .addRaxImm32 m x else .addR64Imm32 m d.code x)
  | .w16, .b8 x, .signExtend => some (.addR16Imm8sx m d.code x)
  | .w32, .b8 x, .signExtend => some (.addR32Imm8sx m d.code x)
  | .w64, .b8 x, .signExtend => some (.addR64Imm8sx m d.code x)
  | _, _, _ => none

/-- The ADC register–immediate form of a destination and an immediate (R265, R267, R268). -/
def adcImmForm (m : Mode) (d : Gpr) (v : Sized) (se : SignExtend) : Option Instr :=
  match d.cls, v, se with
  | .w8, .b8 x, _ => some (if d.code = 0 then .adcAlImm8 m x else .adcR8Imm8 m d.code x)
  | .w16, .b16 x, _ => some (if d.code = 0 then .adcAxImm16 m x else .adcR16Imm16 m d.code x)
  | .w32, .b32 x, _ => some (if d.code = 0 then .adcEaxImm32 m x else .adcR32Imm32 m d.code x)
  | .w64, .b32 x, _ => some (if d.code = 0 then .adcRaxImm32 m x else .adcR64Imm32 m d.code x)
  | .w16, .b8 x, .signExtend => some (.adcR16Imm8sx m d.code x)
  | .w32, .b8 x, .signExtend => some (.adcR32Imm8sx m d.code x)
  | .w64, .b8 x, .signExtend => some (.adcR64Imm8sx m d.code x)
  | _, _, _ => none

/-- The ADD register–register form of a destination and a source, which have one width (R271). -/
def addRegForm (m : Mode) (d s : Gpr) (dir : Direction) : Option Instr :=
  if d.cls ≠ s.cls then none
  else match d.cls, dir with
    | .w8, .toRM => some (.addRm8R8 m d.code s.code)
    | .w16, .toRM => some (.addRm16R16 m d.code s.code)
    | .w32, .toRM => some (.addRm32R32 m d.code s.code)
    | .w64, .toRM => some (.addRm64R64 m d.code s.code)
    | .w8, .toReg => some (.addR8Rm8 m d.code s.code)
    | .w16, .toReg => some (.addR16Rm16 m d.code s.code)
    | .w32, .toReg => some (.addR32Rm32 m d.code s.code)
    | .w64, .toReg => some (.addR64Rm64 m d.code s.code)

/-- The ADC register–register form of a destination and a source, which have one width (R270). -/
def adcRegForm (m : Mode) (d s : Gpr) (dir : Direction) : Option Instr :=
  if d.cls ≠ s.cls then none
  else match d.cls, dir with
    | .w8, .toRM => some (.adcRm8R8 m d.code s.code)
    | .w16, .toRM => some (.adcRm16R16 m d.code s.code)
    | .w32, .toRM => some (.adcRm32R32 m d.code s.code)
    | .w64, .toRM => some (.adcRm64R64 m d.code s.code)
    | .w8, .toReg => some (.adcR8Rm8 m d.code s.code)
    | .w16, .toReg => some (.adcR16Rm16 m d.code s.code)
    | .w32, .toReg => some (.adcR32Rm32 m d.code s.code)
    | .w64, .toReg => some (.adcR64Rm64 m d.code s.code)

/-- The form of a mnemonic over its operands. AAD and AAM without an operand are AAD and AAM with base 10 (R141). -/
def formOfOperands (k : Mnemonic) (m : Mode) (ops : List Operand) (se : SignExtend) (dir : Direction) :
    Option Instr :=
  match k, ops with
  | .add, [.reg d, .imm v] => addImmForm m d v se
  | .adc, [.reg d, .imm v] => adcImmForm m d v se
  | .add, [.reg d, .reg s] => addRegForm m d s dir
  | .adc, [.reg d, .reg s] => adcRegForm m d s dir
  | .aaa, [] => some (.aaa m)
  | .aas, [] => some (.aas m)
  | .aad, [] => some (.aadImm8 m 0x0A)
  | .aad, [.imm (.b8 base)] => some (.aadImm8 m base)
  | .aam, [] => some (.aamImm8 m 0x0A)
  | .aam, [.imm (.b8 base)] => some (.aamImm8 m base)
  | _, _ => none

/-- The row of the opcode table that the ports of an ENCODE request name, if they name one. -/
def formOf (mode : BitVec 3) (mn : BitVec 8) (nopnd : BitVec 2) (o0 o1 : Operand) (se : SignExtend)
    (dir : Direction) : Option Instr :=
  match Mode.ofCode mode, Mnemonic.ofCode mn, usedOperands nopnd o0 o1 with
  | some m, some k, some ops => formOfOperands k m ops se dir
  | _, _, _ => none

end Sys2Proof
end

