-- ==== Sys2Proof/WellFormed.lean ====
section
/-! DEFINITION. Which terms of `Instr` are requests the ports can carry, each under its one name. -/

namespace Sys2Proof

/-- A digit or count fits its 8-bit two's-complement port (R167). -/
def digitFits (d : Int) : Bool :=
  decide (-128 ≤ d ∧ d ≤ 127)

/-- A default operand width is 16 or 32 bits: 0x66 flips between the two (R119, R246). -/
def flips (c : SizeClass) : Bool :=
  c == .w16 || c == .w32

/-- Parameters a unit can be built with: each mode's default width is 16 or 32 bits, and the result port holds the
longest result, the 8 bytes of LE_SER64, while `len` has 4 bits to count them (R51; DEDUCED,
notes/assumptions/7.md). -/
def Params.wf (p : Params) : Bool :=
  flips p.modeWidths.protectedMode && flips p.modeWidths.realAddress && flips p.modeWidths.systemManagement &&
    flips p.modeWidths.compatibility && flips p.modeWidths.bit64 && decide (8 ≤ p.outMax ∧ p.outMax ≤ 15)

/-- A `bseq` port holds at most `BSEQ_MAX` bits, and the `pkinds` port has exactly `LPFX_MAX` slots (R9, R45). -/
def Request.wf (p : Params) (r : Request) : Bool :=
  decide (r.bseq.length ≤ p.bseqMax) && decide (r.pkinds.length = p.lpfxMax)

/-- A well-formed instruction: its operands fit their ports, and no other row names its request. A destination
with code 0 is the accumulator and has the short form, so the ModR/M rows of a full-width immediate hold the codes
1–7 (the table's own note; R267); a request that names an admitted form is that form's row, not ENCODE's. -/
def Instr.wf (p : Params) : Instr → Bool
  | .getbit _ d _ => digitFits d
  | .setbit _ d _ _ => digitFits d
  | .copybit _ sd _ dd _ => digitFits sd && digitFits dd
  | .copybits _ sd _ dd n _ => digitFits sd && digitFits dd && digitFits n
  | .packbits bs _ => decide (bs.length ≤ p.bseqMax)
  | .lpfxEmit npk kinds => decide (kinds.length = min npk.toNat p.lpfxMax)
  | .encode mode mn nopnd o0 o1 se dir => (formOf mode mn nopnd o0 o1 se dir).isNone
  | .addR8Imm8 _ r _ | .adcR8Imm8 _ r _ => decide (r ≠ 0)
  | .addR16Imm16 _ r _ | .adcR16Imm16 _ r _ => decide (r ≠ 0)
  | .addR32Imm32 _ r _ | .adcR32Imm32 _ r _ => decide (r ≠ 0)
  | .addR64Imm32 _ r _ | .adcR64Imm32 _ r _ => decide (r ≠ 0)
  | .leSer16 _ | .leSer32 _ | .leSer64 _ => true
  | .leDes16 _ _ | .leDes32 _ _ _ _ | .leDes64 _ => true
  | .unpackbits _ _ => true
  | .encReg3 _ | .encSreg2 _ | .opsizeOf _ | .wBit _ | .wBitReg _ | .sBit _ _ | .dBit _ | .tttn _ => true
  | .asmModrm _ _ _ | .asmSib _ _ _ | .asmDisp _ => true
  | .buildRex _ _ _ _ | .lpfxRecog _ => true
  | .addAlImm8 _ _ | .addAxImm16 _ _ | .addEaxImm32 _ _ | .addRaxImm32 _ _ => true
  | .addR16Imm8sx _ _ _ | .addR32Imm8sx _ _ _ | .addR64Imm8sx _ _ _ => true
  | .addRm8R8 _ _ _ | .addRm16R16 _ _ _ | .addRm32R32 _ _ _ | .addRm64R64 _ _ _ => true
  | .addR8Rm8 _ _ _ | .addR16Rm16 _ _ _ | .addR32Rm32 _ _ _ | .addR64Rm64 _ _ _ => true
  | .adcAlImm8 _ _ | .adcAxImm16 _ _ | .adcEaxImm32 _ _ | .adcRaxImm32 _ _ => true
  | .adcR16Imm8sx _ _ _ | .adcR32Imm8sx _ _ _ | .adcR64Imm8sx _ _ _ => true
  | .adcRm8R8 _ _ _ | .adcRm16R16 _ _ _ | .adcRm32R32 _ _ _ | .adcRm64R64 _ _ _ => true
  | .adcR8Rm8 _ _ _ | .adcR16Rm16 _ _ _ | .adcR32Rm32 _ _ _ | .adcR64Rm64 _ _ _ => true
  | .aaa _ | .aas _ | .aadImm8 _ _ | .aamImm8 _ _ => true

end Sys2Proof
end

