-- ==== Sys2Proof/Decode.lean ====
section
/-! DEFINITION. The two decoders and their encoder.
`decodeRequest` reads a request from the input ports by the selector table of 30_encoding.md rule R101, and an
ENCODE request that names an admitted form as that form's row; `encode` is its inverse. `decodeBytes` reads an
emitted x86 instruction back from its bytes in a mode, as rules R119 and R120 describe it: the decoder at the
other side of the round trip of 44_alu_encoders.md rule R274. `decodeTableWord` numbers both as
spec/opcode_table.json does. -/

namespace Sys2Proof

/-- Why a decoder rejects. -/
inductive DecodeError where
  /-- `decodeRequest`: an `op` code R101 does not list (R102). The step answers Unsupported for it. Safe. -/
  | unassignedOp (op : BitVec 8)
  /-- `decodeBytes`: the bytes end inside an instruction. Safe. -/
  | truncated
  /-- `decodeBytes`: an opcode, a ModR/M byte or a REX byte of no row of R120. Safe. -/
  | notAdmitted (b : Byte)
  /-- `decodeBytes`: an ASCII-adjust opcode in mode Bit64, where it is undefined (R290). Safe. -/
  | undefinedInMode (m : Mode)
  deriving DecidableEq, Repr

/-! ### Requests on the ports -/

/-- All ports at code 0, or empty; `se` and `dir` at their defaults (R45). The `order` port is at LSB_FIRST, which the
model takes for code 0: neither R45 nor 92_eei_decisions.md D2 gives the codes of `order` (DESIGN CHOICE,
notes/assumptions/17.md). -/
def Request.idle (p : Params) : Request where
  op := 0
  mode := 0
  mn := 0
  nopnd := 0
  opnd0 := .absent
  opnd1 := .absent
  se := .noSignExtend
  dir := .toRM
  byte0 := 0
  byte1 := 0
  digit0 := 0
  digit1 := 0
  count := 0
  order := .lsbFirst
  bit := 0
  bseq := []
  word := 0
  bytesIn := ⟨0, 0, 0, 0, 0, 0, 0, 0⟩
  reg := .gpr ⟨0, .w8⟩
  cls := .w8
  cond := 0
  mod := 0
  regf := 0
  rm := 0
  scale := 0
  index := 0
  base := 0
  disp := 0
  rexW := 0
  rexR := 0
  rexX := 0
  rexB := 0
  pkinds := List.replicate p.lpfxMax 0
  npk := 0

/-- The row an ENCODE request is: the admitted form its ports name, else ENCODE itself (R260). -/
def decodeEncode (r : Request) : Instr :=
  (formOf r.mode r.mn r.nopnd r.opnd0 r.opnd1 r.se r.dir).getD
    (.encode r.mode r.mn r.nopnd r.opnd0 r.opnd1 r.se r.dir)

/-- The instruction a request is, by the selector table (R100, R101); an unlisted `op` code names no operation
(R102). Each operation reads only the ports its rule names (R45). -/
def decodeRequest (r : Request) : Except DecodeError Instr :=
  match r.op with
  | 0x01#8 => .ok (.leSer16 (r.word.setWidth 16))
  | 0x02#8 => .ok (.leSer32 (r.word.setWidth 32))
  | 0x03#8 => .ok (.leSer64 r.word)
  | 0x04#8 => .ok (.leDes16 r.bytesIn.b0 r.bytesIn.b1)
  | 0x05#8 => .ok (.leDes32 r.bytesIn.b0 r.bytesIn.b1 r.bytesIn.b2 r.bytesIn.b3)
  | 0x06#8 => .ok (.leDes64 r.bytesIn)
  | 0x07#8 => .ok (.getbit r.byte0 r.digit0.toInt r.order)
  | 0x08#8 => .ok (.setbit r.byte0 r.digit0.toInt r.bit r.order)
  | 0x09#8 => .ok (.copybit r.byte0 r.digit0.toInt r.byte1 r.digit1.toInt r.order)
  | 0x0A#8 => .ok (.copybits r.byte0 r.digit0.toInt r.byte1 r.digit1.toInt r.count.toInt r.order)
  | 0x0B#8 => .ok (.packbits r.bseq r.order)
  | 0x0C#8 => .ok (.unpackbits r.byte0 r.order)
  | 0x10#8 => .ok (.encReg3 r.reg)
  | 0x11#8 => .ok (.encSreg2 r.reg)
  | 0x12#8 => .ok (.opsizeOf r.reg)
  | 0x13#8 => .ok (.wBit r.cls)
  | 0x14#8 => .ok (.wBitReg r.reg)
  | 0x15#8 => .ok (.sBit r.se r.cls)
  | 0x16#8 => .ok (.dBit r.dir)
  | 0x17#8 => .ok (.tttn r.cond)
  | 0x18#8 => .ok (.asmModrm r.mod r.regf r.rm)
  | 0x19#8 => .ok (.asmSib r.scale r.index r.base)
  | 0x1A#8 => .ok (.asmDisp (Sized.ofPort r.cls r.disp))
  | 0x20#8 => .ok (.buildRex r.rexW r.rexR r.rexX r.rexB)
  | 0x21#8 => .ok (.lpfxEmit r.npk (r.pkinds.take r.npk.toNat))
  | 0x22#8 => .ok (.lpfxRecog r.byte0)
  | 0x30#8 => .ok (decodeEncode r)
  | op => .error (.unassignedOp op)

/-! ### Emitted bytes -/

/-- Legacy-prefix bytes are skipped; the flag says whether the operand-size override 0x66 is among them (R119). -/
def skipLegacy : ByteSeq → Bool × ByteSeq
  | [] => (false, [])
  | b :: bs =>
    if (prefixGroup b).isSome then (b == 0x66 || (skipLegacy bs).1, (skipLegacy bs).2) else (false, b :: bs)

/-- In mode Bit64 one byte 0x40–0x4F is taken as REX (R119). The unit emits no REX but 0x48 (R131), so another one
is of no row; the flag says whether REX.W is there. -/
def takeRex (m : Mode) (bs : ByteSeq) : Except DecodeError (Bool × ByteSeq) :=
  match bs with
  | [] => .ok (false, [])
  | b :: rest =>
    if m = .bit64 ∧ b &&& 0xF0 = 0x40 then
      if b = 0x48 then .ok (true, rest) else .error (.notAdmitted b)
    else .ok (false, b :: rest)

/-- The operand-size attribute: the mode's default, flipped between 16 and 32 by 0x66, and 64 under REX.W (R119). -/
def opsizeAttr (p : Params) (m : Mode) (has66 rexW : Bool) : SizeClass :=
  if rexW then .w64
  else if has66 then (if p.defaultOpsize m = .w32 then .w16 else .w32)
  else p.defaultOpsize m

/-- The fields mod, reg and rm of a ModR/M byte (R114). -/
def modrmFields (b : Byte) : BitVec 2 × BitVec 3 × BitVec 3 :=
  (b.extractLsb' 6 2, b.extractLsb' 3 3, b.extractLsb' 0 3)

/-- An instruction ending in an imm8. -/
def withImm8 (f : BitVec 8 → Instr) : ByteSeq → Except DecodeError (Instr × ByteSeq)
  | b0 :: rest => .ok (f b0, rest)
  | _ => .error .truncated

/-- An instruction ending in an imm16. -/
def withImm16 (f : BitVec 16 → Instr) : ByteSeq → Except DecodeError (Instr × ByteSeq)
  | b0 :: b1 :: rest => .ok (f (fromLe 16 [b0, b1]), rest)
  | _ => .error .truncated

/-- An instruction ending in an imm32. -/
def withImm32 (f : BitVec 32 → Instr) : ByteSeq → Except DecodeError (Instr × ByteSeq)
  | b0 :: b1 :: b2 :: b3 :: rest => .ok (f (fromLe 32 [b0, b1, b2, b3]), rest)
  | _ => .error .truncated

/-- A ModR/M byte that names a register operand, mod = 11; another mod names memory, which no row has (R110). -/
def withModrm (f : BitVec 3 → BitVec 3 → ByteSeq → Except DecodeError (Instr × ByteSeq)) :
    ByteSeq → Except DecodeError (Instr × ByteSeq)
  | [] => .error .truncated
  | b :: rest =>
    if b.extractLsb' 6 2 = 3 then f (b.extractLsb' 3 3) (b.extractLsb' 0 3) rest else .error (.notAdmitted b)

/-- Opcodes 0x05 and 0x15: the accumulator with a word-sized immediate, by the operand-size attribute. -/
def decodeAccWord (c : SizeClass) (ax : BitVec 16 → Instr) (eax rax : BitVec 32 → Instr) (bs : ByteSeq) :
    Except DecodeError (Instr × ByteSeq) :=
  match c with
  | .w16 => withImm16 ax bs
  | .w64 => withImm32 rax bs
  | _ => withImm32 eax bs

/-- Opcode 0x80: immediate group 1 on bytes; /0 is ADD and /2 is ADC (R114). -/
def decodeGrp80 (m : Mode) (reg rm : BitVec 3) (bs : ByteSeq) : Except DecodeError (Instr × ByteSeq) :=
  if reg = 0 then withImm8 (.addR8Imm8 m rm) bs
  else if reg = 2 then withImm8 (.adcR8Imm8 m rm) bs
  else .error (.notAdmitted 0x80)

/-- Opcode 0x81: immediate group 1 with a word-sized immediate. -/
def decodeGrp81 (m : Mode) (c : SizeClass) (reg rm : BitVec 3) (bs : ByteSeq) :
    Except DecodeError (Instr × ByteSeq) :=
  if reg = 0 then decodeAccWord c (.addR16Imm16 m rm) (.addR32Imm32 m rm) (.addR64Imm32 m rm) bs
  else if reg = 2 then decodeAccWord c (.adcR16Imm16 m rm) (.adcR32Imm32 m rm) (.adcR64Imm32 m rm) bs
  else .error (.notAdmitted 0x81)

/-- Opcode 0x83: immediate group 1 with a sign-extended imm8. -/
def decodeGrp83 (m : Mode) (c : SizeClass) (reg rm : BitVec 3) (bs : ByteSeq) :
    Except DecodeError (Instr × ByteSeq) :=
  if reg = 0 then
    withImm8 (match c with | .w16 => .addR16Imm8sx m rm | .w64 => .addR64Imm8sx m rm | _ => .addR32Imm8sx m rm) bs
  else if reg = 2 then
    withImm8 (match c with | .w16 => .adcR16Imm8sx m rm | .w64 => .adcR64Imm8sx m rm | _ => .adcR32Imm8sx m rm) bs
  else .error (.notAdmitted 0x83)

/-- One of three rows by the operand-size attribute. -/
def byOpsize (c : SizeClass) (i16 i32 i64 : Instr) : Instr :=
  match c with
  | .w16 => i16
  | .w64 => i64
  | _ => i32

/-- The opcode and what follows it, at an operand-size attribute (R119, R120). -/
def decodeOpcode (m : Mode) (c : SizeClass) : ByteSeq → Except DecodeError (Instr × ByteSeq)
  | [] => .error .truncated
  | op :: bs =>
    match op with
    | 0x04#8 => withImm8 (.addAlImm8 m) bs
    | 0x14#8 => withImm8 (.adcAlImm8 m) bs
    | 0x05#8 => decodeAccWord c (.addAxImm16 m) (.addEaxImm32 m) (.addRaxImm32 m) bs
    | 0x15#8 => decodeAccWord c (.adcAxImm16 m) (.adcEaxImm32 m) (.adcRaxImm32 m) bs
    | 0x80#8 => withModrm (fun reg rm rest => decodeGrp80 m reg rm rest) bs
    | 0x81#8 => withModrm (fun reg rm rest => decodeGrp81 m c reg rm rest) bs
    | 0x83#8 => withModrm (fun reg rm rest => decodeGrp83 m c reg rm rest) bs
    | 0x00#8 => withModrm (fun reg rm rest => .ok (.addRm8R8 m rm reg, rest)) bs
    | 0x01#8 => withModrm (fun reg rm rest =>
        .ok (byOpsize c (.addRm16R16 m rm reg) (.addRm32R32 m rm reg) (.addRm64R64 m rm reg), rest)) bs
    | 0x02#8 => withModrm (fun reg rm rest => .ok (.addR8Rm8 m reg rm, rest)) bs
    | 0x03#8 => withModrm (fun reg rm rest =>
        .ok (byOpsize c (.addR16Rm16 m reg rm) (.addR32Rm32 m reg rm) (.addR64Rm64 m reg rm), rest)) bs
    | 0x10#8 => withModrm (fun reg rm rest => .ok (.adcRm8R8 m rm reg, rest)) bs
    | 0x11#8 => withModrm (fun reg rm rest =>
        .ok (byOpsize c (.adcRm16R16 m rm reg) (.adcRm32R32 m rm reg) (.adcRm64R64 m rm reg), rest)) bs
    | 0x12#8 => withModrm (fun reg rm rest => .ok (.adcR8Rm8 m reg rm, rest)) bs
    | 0x13#8 => withModrm (fun reg rm rest =>
        .ok (byOpsize c (.adcR16Rm16 m reg rm) (.adcR32Rm32 m reg rm) (.adcR64Rm64 m reg rm), rest)) bs
    | 0x37#8 => if m = .bit64 then .error (.undefinedInMode m) else .ok (.aaa m, bs)
    | 0x3F#8 => if m = .bit64 then .error (.undefinedInMode m) else .ok (.aas m, bs)
    | 0xD4#8 => if m = .bit64 then .error (.undefinedInMode m) else withImm8 (.aamImm8 m) bs
    | 0xD5#8 => if m = .bit64 then .error (.undefinedInMode m) else withImm8 (.aadImm8 m) bs
    | b => .error (.notAdmitted b)

/-- One x86 instruction of the rows of R120 off the front of a byte sequence, in a mode, with what is left of the
sequence (R119): legacy prefixes, REX, then the opcode. -/
def decodeBytes (p : Params) (m : Mode) (bs : ByteSeq) : Except DecodeError (Instr × ByteSeq) :=
  match takeRex m (skipLegacy bs).2 with
  | .error e => .error e
  | .ok (rexW, rest) => decodeOpcode m (opsizeAttr p m (skipLegacy bs).1 rexW) rest

/-! ### The encoder -/

/-- An ADC or ADD request for a register and an immediate. -/
def riRequest (p : Params) (k : Mnemonic) (m : Mode) (d : Gpr) (v : Sized) (se : SignExtend) : Request :=
  { Request.idle p with
    op := 0x30, mode := m.code, mn := k.code, nopnd := 2, opnd0 := .reg d, opnd1 := .imm v, se := se }

/-- An ADC or ADD request for two registers of one width. -/
def rrRequest (p : Params) (k : Mnemonic) (m : Mode) (c : SizeClass) (dst src : BitVec 3) (dir : Direction) :
    Request :=
  { Request.idle p with
    op := 0x30, mode := m.code, mn := k.code, nopnd := 2, opnd0 := .reg ⟨dst, c⟩, opnd1 := .reg ⟨src, c⟩,
    dir := dir }

/-- An ASCII-adjust request without an operand. -/
def asciiRequest (p : Params) (k : Mnemonic) (m : Mode) : Request :=
  { Request.idle p with op := 0x30, mode := m.code, mn := k.code }

/-- An ASCII-adjust request with a base. -/
def asciiBaseRequest (p : Params) (k : Mnemonic) (m : Mode) (base : Byte) : Request :=
  { Request.idle p with op := 0x30, mode := m.code, mn := k.code, nopnd := 1, opnd0 := .imm (.b8 base) }

/-- The `pkinds` slots that carry the given codes, the unused slots at code 0. -/
def kindSlots (p : Params) (kinds : List (BitVec 4)) : List (BitVec 4) :=
  kinds ++ List.replicate (p.lpfxMax - kinds.length) 0

/-- The request an instruction is, on the ports of a unit built with `p`: R101's selector with the operands each
operation reads, and for a form of ENCODE the ENCODE request that asks for it. A port an instruction does not read is
idle. -/
def encode (p : Params) : Instr → Request
  | .leSer16 w => { Request.idle p with op := 0x01, word := w.setWidth 64 }
  | .leSer32 w => { Request.idle p with op := 0x02, word := w.setWidth 64 }
  | .leSer64 w => { Request.idle p with op := 0x03, word := w }
  | .leDes16 b0 b1 => { Request.idle p with op := 0x04, bytesIn := ⟨b0, b1, 0, 0, 0, 0, 0, 0⟩ }
  | .leDes32 b0 b1 b2 b3 => { Request.idle p with op := 0x05, bytesIn := ⟨b0, b1, b2, b3, 0, 0, 0, 0⟩ }
  | .leDes64 bs => { Request.idle p with op := 0x06, bytesIn := bs }
  | .getbit b d o => { Request.idle p with op := 0x07, byte0 := b, digit0 := BitVec.ofInt 8 d, order := o }
  | .setbit b d v o => { Request.idle p with op := 0x08, byte0 := b, digit0 := BitVec.ofInt 8 d, bit := v, order := o }
  | .copybit src sd dst dd o =>
    { Request.idle p with
      op := 0x09, byte0 := src, digit0 := BitVec.ofInt 8 sd, byte1 := dst, digit1 := BitVec.ofInt 8 dd, order := o }
  | .copybits src sd dst dd n o =>
    { Request.idle p with
      op := 0x0A, byte0 := src, digit0 := BitVec.ofInt 8 sd, byte1 := dst, digit1 := BitVec.ofInt 8 dd,
      count := BitVec.ofInt 8 n, order := o }
  | .packbits bs o => { Request.idle p with op := 0x0B, bseq := bs, order := o }
  | .unpackbits b o => { Request.idle p with op := 0x0C, byte0 := b, order := o }
  | .encReg3 r => { Request.idle p with op := 0x10, reg := r }
  | .encSreg2 r => { Request.idle p with op := 0x11, reg := r }
  | .opsizeOf r => { Request.idle p with op := 0x12, reg := r }
  | .wBit c => { Request.idle p with op := 0x13, cls := c }
  | .wBitReg r => { Request.idle p with op := 0x14, reg := r }
  | .sBit se c => { Request.idle p with op := 0x15, se := se, cls := c }
  | .dBit dir => { Request.idle p with op := 0x16, dir := dir }
  | .tttn cond => { Request.idle p with op := 0x17, cond := cond }
  | .asmModrm mod regf rm => { Request.idle p with op := 0x18, mod := mod, regf := regf, rm := rm }
  | .asmSib scale index base => { Request.idle p with op := 0x19, scale := scale, index := index, base := base }
  | .asmDisp d => { Request.idle p with op := 0x1A, cls := d.cls, disp := d.toPort }
  | .buildRex w r x b => { Request.idle p with op := 0x20, rexW := w, rexR := r, rexX := x, rexB := b }
  | .lpfxEmit npk kinds => { Request.idle p with op := 0x21, npk := npk, pkinds := kindSlots p kinds }
  | .lpfxRecog b => { Request.idle p with op := 0x22, byte0 := b }
  | .encode mode mn nopnd o0 o1 se dir =>
    { Request.idle p with
      op := 0x30, mode := mode, mn := mn, nopnd := nopnd, opnd0 := o0, opnd1 := o1, se := se, dir := dir }
  | .addAlImm8 m v => riRequest p .add m ⟨0, .w8⟩ (.b8 v) .noSignExtend
  | .addAxImm16 m v => riRequest p .add m ⟨0, .w16⟩ (.b16 v) .noSignExtend
  | .addEaxImm32 m v => riRequest p .add m ⟨0, .w32⟩ (.b32 v) .noSignExtend
  | .addRaxImm32 m v => riRequest p .add m ⟨0, .w64⟩ (.b32 v) .noSignExtend
  | .addR8Imm8 m r v => riRequest p .add m ⟨r, .w8⟩ (.b8 v) .noSignExtend
  | .addR16Imm16 m r v => riRequest p .add m ⟨r, .w16⟩ (.b16 v) .noSignExtend
  | .addR32Imm32 m r v => riRequest p .add m ⟨r, .w32⟩ (.b32 v) .noSignExtend
  | .addR64Imm32 m r v => riRequest p .add m ⟨r, .w64⟩ (.b32 v) .noSignExtend
  | .addR16Imm8sx m r v => riRequest p .add m ⟨r, .w16⟩ (.b8 v) .signExtend
  | .addR32Imm8sx m r v => riRequest p .add m ⟨r, .w32⟩ (.b8 v) .signExtend
  | .addR64Imm8sx m r v => riRequest p .add m ⟨r, .w64⟩ (.b8 v) .signExtend
  | .addRm8R8 m dst src => rrRequest p .add m .w8 dst src .toRM
  | .addRm16R16 m dst src => rrRequest p .add m .w16 dst src .toRM
  | .addRm32R32 m dst src => rrRequest p .add m .w32 dst src .toRM
  | .addRm64R64 m dst src => rrRequest p .add m .w64 dst src .toRM
  | .addR8Rm8 m dst src => rrRequest p .add m .w8 dst src .toReg
  | .addR16Rm16 m dst src => rrRequest p .add m .w16 dst src .toReg
  | .addR32Rm32 m dst src => rrRequest p .add m .w32 dst src .toReg
  | .addR64Rm64 m dst src => rrRequest p .add m .w64 dst src .toReg
  | .adcAlImm8 m v => riRequest p .adc m ⟨0, .w8⟩ (.b8 v) .noSignExtend
  | .adcAxImm16 m v => riRequest p .adc m ⟨0, .w16⟩ (.b16 v) .noSignExtend
  | .adcEaxImm32 m v => riRequest p .adc m ⟨0, .w32⟩ (.b32 v) .noSignExtend
  | .adcRaxImm32 m v => riRequest p .adc m ⟨0, .w64⟩ (.b32 v) .noSignExtend
  | .adcR8Imm8 m r v => riRequest p .adc m ⟨r, .w8⟩ (.b8 v) .noSignExtend
  | .adcR16Imm16 m r v => riRequest p .adc m ⟨r, .w16⟩ (.b16 v) .noSignExtend
  | .adcR32Imm32 m r v => riRequest p .adc m ⟨r, .w32⟩ (.b32 v) .noSignExtend
  | .adcR64Imm32 m r v => riRequest p .adc m ⟨r, .w64⟩ (.b32 v) .noSignExtend
  | .adcR16Imm8sx m r v => riRequest p .adc m ⟨r, .w16⟩ (.b8 v) .signExtend
  | .adcR32Imm8sx m r v => riRequest p .adc m ⟨r, .w32⟩ (.b8 v) .signExtend
  | .adcR64Imm8sx m r v => riRequest p .adc m ⟨r, .w64⟩ (.b8 v) .signExtend
  | .adcRm8R8 m dst src => rrRequest p .adc m .w8 dst src .toRM
  | .adcRm16R16 m dst src => rrRequest p .adc m .w16 dst src .toRM
  | .adcRm32R32 m dst src => rrRequest p .adc m .w32 dst src .toRM
  | .adcRm64R64 m dst src => rrRequest p .adc m .w64 dst src .toRM
  | .adcR8Rm8 m dst src => rrRequest p .adc m .w8 dst src .toReg
  | .adcR16Rm16 m dst src => rrRequest p .adc m .w16 dst src .toReg
  | .adcR32Rm32 m dst src => rrRequest p .adc m .w32 dst src .toReg
  | .adcR64Rm64 m dst src => rrRequest p .adc m .w64 dst src .toReg
  | .aaa m => asciiRequest p .aaa m
  | .aas m => asciiRequest p .aas m
  | .aadImm8 m base => asciiBaseRequest p .aad m base
  | .aamImm8 m base => asciiBaseRequest p .aam m base

/-- The mode of a form of ENCODE; the operations of R101 have none. -/
def Instr.formMode : Instr → Option Mode
  | .leSer16 _ | .leSer32 _ | .leSer64 _ | .leDes64 _ | .encReg3 _ | .encSreg2 _ | .opsizeOf _ => none
  | .wBit _ | .wBitReg _ | .dBit _ | .tttn _ | .asmDisp _ | .lpfxRecog _ => none
  | .leDes16 _ _ | .packbits _ _ | .unpackbits _ _ | .sBit _ _ | .lpfxEmit _ _ => none
  | .getbit _ _ _ | .asmModrm _ _ _ | .asmSib _ _ _ => none
  | .leDes32 _ _ _ _ | .setbit _ _ _ _ | .buildRex _ _ _ _ => none
  | .copybit _ _ _ _ _ => none
  | .copybits _ _ _ _ _ _ => none
  | .encode _ _ _ _ _ _ _ => none
  | .aaa m | .aas m => some m
  | .addAlImm8 m _ | .addAxImm16 m _ | .addEaxImm32 m _ | .addRaxImm32 m _ | .adcAlImm8 m _ | .adcAxImm16 m _
  | .adcEaxImm32 m _ | .adcRaxImm32 m _ | .aadImm8 m _ | .aamImm8 m _ => some m
  | .addR8Imm8 m _ _ | .addR16Imm16 m _ _ | .addR32Imm32 m _ _ | .addR64Imm32 m _ _ | .addR16Imm8sx m _ _
  | .addR32Imm8sx m _ _ | .addR64Imm8sx m _ _ | .addRm8R8 m _ _ | .addRm16R16 m _ _ | .addRm32R32 m _ _
  | .addRm64R64 m _ _ | .addR8Rm8 m _ _ | .addR16Rm16 m _ _ | .addR32Rm32 m _ _ | .addR64Rm64 m _ _
  | .adcR8Imm8 m _ _ | .adcR16Imm16 m _ _ | .adcR32Imm32 m _ _ | .adcR64Imm32 m _ _ | .adcR16Imm8sx m _ _
  | .adcR32Imm8sx m _ _ | .adcR64Imm8sx m _ _ | .adcRm8R8 m _ _ | .adcRm16R16 m _ _ | .adcRm32R32 m _ _
  | .adcRm64R64 m _ _ | .adcR8Rm8 m _ _ | .adcR16Rm16 m _ _ | .adcR32Rm32 m _ _ | .adcR64Rm64 m _ _ => some m

/-! ### The opcode table's numbering -/

/-- The `k` low bytes of a number, the most significant first: how the table writes a row of several bytes. -/
def beBytes (k w : Nat) : ByteSeq :=
  (List.range k).map fun j => BitVec.ofNat 8 (w / 256 ^ (k - 1 - j))

/-- The `k` low bytes of a number, the least significant first. -/
def numLeBytes (k w : Nat) : ByteSeq :=
  (List.range k).map fun j => BitVec.ofNat 8 (w / 256 ^ j)

/-- What `decodeBytes` reads off the front of `bs` followed by four operand bytes of zeros. -/
def decodeFront (m : Mode) (bs : ByteSeq) : Option Instr :=
  match decodeBytes Config.params m (bs ++ [0, 0, 0, 0]) with
  | .ok (i, _) => some i
  | .error _ => none

/-- The form of ENCODE a number of the table is. The table writes a row's bytes as one number, the first byte the most
significant (`0x4805` is `48 05`), so for more than 8 bits that reading is tried first; a row whose only fixed byte is
its opcode is found with the opcode least significant. A row under REX.W is read in Bit64; a row of operand size 16,
which the table marks by a bit 16 (24 bits), in RealAddress, whose default it is; any other in Protected. -/
def decodeTableForm (nbits w : Nat) : Option Instr :=
  if nbits ≤ 8 then decodeFront .protectedMode (numLeBytes 1 w)
  else if w / 65536 = 0x48 then decodeFront .bit64 (beBytes 3 w)
  else if w / 256 = 0x48 then decodeFront .bit64 (beBytes 2 w)
  else
    let m : Mode := if nbits = 24 ∨ nbits = 32 then .realAddress else .protectedMode
    match decodeFront m (beBytes 2 (w % 65536)) with
    | some i => some i
    | none => decodeFront m (numLeBytes 3 w)

/-- The instruction the decoders read from an instruction whose bits are `w`, as spec/opcode_table.json numbers
them, every bit above `nbits` being 0. A row of one byte is first an `op` code with every other port at 0 (R101);
the rows of x86 formats are then read from their bytes. -/
def decodeTableWord (nbits w : Nat) : Option Instr :=
  match decodeRequest { Request.idle Config.params with op := BitVec.ofNat 8 w } with
  | .ok i => if nbits ≤ 8 then some i else decodeTableForm nbits (w % 2 ^ nbits)
  | .error _ => decodeTableForm nbits (w % 2 ^ nbits)

end Sys2Proof
end

