-- ==== Sys2Proof/Machine/State.lean ====
section
/-! DEFINITION. The state of the model. The unit stores nothing (10_state.md rule R40): its state is its interface,
the request on the input ports and the result on the output ports, beside the parameters it was built with (R9). It
has no register file, program counter, status register, mode register or memory (R41–R43, R54; 20_memory.md rule R81).
-/

namespace Sys2Proof.Machine

/-- The six kinds of error result (60_exceptions.md rule R312). -/
inductive ErrKind where
  | modeViolation
  | encodingNotRepresentable
  | outOfRange
  | invalidArgument
  | notYetSupported
  | unsupported
  deriving DecidableEq, Repr

/-- What a successful result carries (R50). -/
inductive Payload where
  /-- A byte sequence. -/
  | bytes (bs : ByteSeq)
  /-- A bit list; element 0 is the most significant, but element i of UNPACKBITS is digit i. -/
  | bits (s : BitSeq)
  /-- The 16-bit value of LE_DES16. -/
  | word16 (v : BitVec 16)
  /-- The 32-bit value of LE_DES32. -/
  | word32 (v : BitVec 32)
  /-- The 64-bit value of LE_DES64. -/
  | word64 (v : BitVec 64)
  /-- The size class of OPSIZE_OF. -/
  | size (c : SizeClass)
  /-- The prefix group of LPFX_RECOG, group g + 1 as g, or none. -/
  | group (g : Option (Fin 4))
  deriving DecidableEq, Repr

/-- Every request has exactly one result (R50, R310). -/
inductive Result where
  | ok (p : Payload)
  | err (e : ErrKind)
  deriving DecidableEq, Repr

/-- The output ports (R51). A data port is `none` when it carries no value: on an error by R52, and on a success
for the ports its payload does not use (notes/assumptions/2.md). A data port's value lists its valid bytes or
bits only. -/
structure OutPorts where
  /-- 1 for a success, 0 for an error. -/
  ok : BitVec 1
  /-- The error code; meaningful when `ok` is 0. -/
  err : BitVec 3
  /-- How many bytes of `bytesOut` or bits of `bitsOut` are valid. -/
  len : BitVec 4
  /-- The valid bytes of `bytes_out`, the first emitted first. -/
  bytesOut : Option ByteSeq
  /-- The valid bits of `bits_out`: element 0 is the port's bit `len` − 1, the last element its bit 0. -/
  bitsOut : Option BitSeq
  /-- `word_out`, zero-extended from the width of the value. -/
  wordOut : Option (BitVec 64)
  deriving DecidableEq, Repr

/-- The state: the ports, and the parameters the unit was built with. The unit stores nothing (R40): the parameters
are no storage, no request and no reset changes them (R10, R343). -/
structure State where
  /-- The implementation parameters of this unit (R9). -/
  params : Params
  /-- The request the host holds on the input ports (R44, R45, R57). -/
  inp : Request
  /-- What the output ports carry (R51). -/
  out : OutPorts
  deriving DecidableEq, Repr

/-- Reasons to stop with a fault: there are none. Every request yields exactly one result, and an error is a result
value on the output ports (R310, R320), so no step faults. -/
inductive Fault where
  deriving DecidableEq, Repr

/-- Reasons to refuse an instruction. -/
inductive Refusal where
  /-- An arm of `exec` whose instruction has no meaning yet. No arm raises it: every row has its meaning. Safe. -/
  | notModelled (mnemonic : String)
  deriving DecidableEq, Repr

/-- The state after power-on. The unit has no reset input and no reset values (R71, R340): nothing is presented yet,
the parameters are R9's defaults, every input port is idle at code 0 (DESIGN CHOICE, notes/assumptions/1.md, and for
`order` notes/assumptions/17.md), and the outputs are settled for that request (R341), whose `op` code 0 names no
operation and so yields Unsupported (R102). -/
def State.reset : State where
  params := Config.params
  inp := Request.idle Config.params
  out :=
    { ok := 0
      err := 6
      len := 0
      bytesOut := none
      bitsOut := none
      wordOut := none }

end Sys2Proof.Machine
end

