-- ==== Sys2Proof/Machine/Ops.lean ====
section
/-! DEFINITION. The named operations over the ports: driving a result (10_state.md rules R50–R52), raising an error
(60_exceptions.md rules R310–R312, R320, R321) and presenting a request (R44, R57). -/

namespace Sys2Proof.Machine

/-- A step's outcome in this machine. -/
abbrev Out := Host.Outcome State Fault Refusal

/-- The code of an error kind on the `err` port (R312); 0 is no error and 7 is never driven. -/
def ErrKind.code : ErrKind → BitVec 3
  | .modeViolation => 1
  | .encodingNotRepresentable => 2
  | .outOfRange => 3
  | .invalidArgument => 4
  | .notYetSupported => 5
  | .unsupported => 6

/-- The ports of a byte result (R51). -/
def bytesPorts (bs : ByteSeq) : OutPorts :=
  { ok := 1, err := 0, len := BitVec.ofNat 4 bs.length, bytesOut := some bs, bitsOut := none, wordOut := none }

/-- The ports of a bit result (R51). -/
def bitsPorts (s : BitSeq) : OutPorts :=
  { ok := 1, err := 0, len := BitVec.ofNat 4 s.length, bytesOut := none, bitsOut := some s, wordOut := none }

/-- The ports of a word result of `n` bits, zero-extended to 64 (R51). R51 gives `len` no meaning here: it is the
free value `Config.wordLen` (notes/assumptions/3.md). -/
def wordPorts (n : Nat) (v : BitVec 64) : OutPorts :=
  { ok := 1, err := 0, len := Config.wordLen n v.toNat, bytesOut := none, bitsOut := none, wordOut := some v }

/-- The ports of an error: its code, and no payload (R52, R311). -/
def errPorts (e : ErrKind) : OutPorts :=
  { ok := 0, err := e.code, len := 0, bytesOut := none, bitsOut := none, wordOut := none }

/-- The code of a prefix-group result on `bits_out[2:0]`: 0 for none, g + 1 for group g + 1 (R51). -/
def groupCode : Option (Fin 4) → BitVec 3
  | none => 0
  | some g => BitVec.ofNat 3 (g.val + 1)

/-- The ports of a payload (R51). -/
def payloadPorts : Payload → OutPorts
  | .bytes bs => bytesPorts bs
  | .bits s => bitsPorts s
  | .word16 v => wordPorts 16 (v.setWidth 64)
  | .word32 v => wordPorts 32 (v.setWidth 64)
  | .word64 v => wordPorts 64 v
  | .size c => bitsPorts (bitsOf c.code)
  | .group g => bitsPorts (bitsOf (groupCode g))

/-- The ports of a result (R51, R311). -/
def resultPorts : Result → OutPorts
  | .ok p => payloadPorts p
  | .err e => errPorts e

/-- `out <- …` (R15): drive a result on the output ports. Nothing else changes, for nothing is stored (R40), and the
host holds the inputs (R57). -/
def drive (r : Result) (s : State) : Out :=
  .next { s with out := resultPorts r }

/-- `raise E` (R15, R311). There is no trap entry: an error saves no state, changes no mode, uses no vector and
transfers no control (R320), so nothing is there to return from (R321). -/
def raise (e : ErrKind) (s : State) : Out :=
  drive (.err e) s

/-- The host presents a request on the input ports; it may do so at any time (R57). -/
def present (r : Request) (s : State) : State :=
  { s with inp := r }

/-- The bit `i` of the physical `bits_out` port, where it is valid (R51): element 0 of the list is bit `len` − 1. -/
def bitsOutBit (o : OutPorts) (i : Nat) : Option Bool :=
  match o.bitsOut with
  | some s => s.reverse[i]?
  | none => none

/-- The byte `i` of the physical `bytes_out` port, where it is valid (R51). -/
def bytesOutByte (o : OutPorts) (i : Nat) : Option Byte :=
  match o.bytesOut with
  | some bs => bs[i]?
  | none => none

end Sys2Proof.Machine
end

