-- ==== Sys2Proof/Machine/AsciiAdjust.lean ====
section
/-! DEFINITION. The ASCII-adjust family (45_ascii_adjust_encoders.md rules R290–R294): its part of ENCODE, and the
four rows AAA, AAS, AAD and AAM of the opcode table. -/

namespace Sys2Proof.Machine

/-- `aaa` (R291). -/
def aaa : List Operand → Result
  | [] => .ok (.bytes [0x37])
  | _ => .err .encodingNotRepresentable

/-- `aas` (R292). -/
def aas : List Operand → Result
  | [] => .ok (.bytes [0x3F])
  | _ => .err .encodingNotRepresentable

/-- `aad` (R293): the base defaults to 10. -/
def aad : List Operand → Result
  | [] => .ok (.bytes [0xD5, 0x0A])
  | [.imm (.b8 base)] => .ok (.bytes [0xD5, base])
  | _ => .err .encodingNotRepresentable

/-- `aam` (R294): the base defaults to 10, and is not checked. -/
def aam : List Operand → Result
  | [] => .ok (.bytes [0xD4, 0x0A])
  | [.imm (.b8 base)] => .ok (.bytes [0xD4, base])
  | _ => .err .encodingNotRepresentable

/-- `ascii` (R290): the mode check comes first, before any look at the operands. The ADC and ADD mnemonics do not
reach it (R260). -/
def ascii (k : Mnemonic) (ops : List Operand) (m : Mode) : Result :=
  if m = .bit64 then .err .modeViolation
  else match k with
    | .aaa => aaa ops
    | .aas => aas ops
    | .aad => aad ops
    | .aam => aam ops
    | .adc => .err .notYetSupported
    | .add => .err .notYetSupported

/-- A form of the family: its bytes, in a mode where the family is defined (R290). -/
def asciiForm (m : Mode) (bytes : ByteSeq) : Result :=
  if m = .bit64 then .err .modeViolation else .ok (.bytes bytes)

/-- AAA: `37` (R120, R291). -/
def execAaa (m : Mode) (s : State) : Out :=
  drive (asciiForm m [0x37]) s

/-- AAS: `3F` (R120, R292). -/
def execAas (m : Mode) (s : State) : Out :=
  drive (asciiForm m [0x3F]) s

/-- AAD imm8: `D5 ib` (R120, R293). -/
def execAadImm8 (m : Mode) (base : Byte) (s : State) : Out :=
  drive (asciiForm m [0xD5, base]) s

/-- AAM imm8: `D4 ib` (R120, R294). -/
def execAamImm8 (m : Mode) (base : Byte) (s : State) : Out :=
  drive (asciiForm m [0xD4, base]) s

end Sys2Proof.Machine
end

