-- ==== Sys2Proof/Machine/FieldEncoders.lean ====
section
/-! DEFINITION. The register and field encoders (41_field_encoders.md rules R190–R198). -/

namespace Sys2Proof.Machine

/-- ENC_REG3, `encodeRegister3` (R190): the intrinsic code of a register, whatever its width. -/
def encReg3 : RegPort → Result
  | .gpr r => .ok (.bits (bitsOf r.code))
  | .sreg c => if c ≤ 5 then .ok (.bits (bitsOf c)) else .err .unsupported
  | .spr r => .ok (.bits (bitsOf (Config.sprCode r)))
  | .noFile => .err .unsupported

/-- ENC_REG3 (R190). -/
def execEncReg3 (r : RegPort) (s : State) : Out :=
  drive (encReg3 r) s

/-- ENC_SREG2, `encodeSegmentRegister2` (R191): ES, CS, SS and DS fit; FS and GS do not. -/
def encSreg2 : RegPort → Result
  | .sreg c =>
    if c ≤ 3 then .ok (.bits (bitsOf (c.setWidth 2)))
    else if c ≤ 5 then .err .encodingNotRepresentable
    else .err .unsupported
  | .gpr _ => .err .unsupported
  | .spr _ => .err .unsupported
  | .noFile => .err .unsupported

/-- ENC_SREG2 (R191). -/
def execEncSreg2 (r : RegPort) (s : State) : Out :=
  drive (encSreg2 r) s

/-- OPSIZE_OF, `operandSizeOf` (R192): only a general-purpose register has a class. -/
def opsizeOf : RegPort → Result
  | .gpr r => .ok (.size r.cls)
  | .sreg _ => .err .unsupported
  | .spr _ => .err .unsupported
  | .noFile => .err .unsupported

/-- OPSIZE_OF (R192). -/
def execOpsizeOf (r : RegPort) (s : State) : Out :=
  drive (opsizeOf r) s

/-- `wBit`, `toWBit` (R193): 0 only for the 8-bit class. -/
def wBit (c : SizeClass) : BitSeq :=
  if c = .w8 then [false] else [true]

/-- W_BIT (R193). -/
def execWBit (c : SizeClass) (s : State) : Out :=
  drive (.ok (.bits (wBit c))) s

/-- W_BIT_REG (R194): the `w` bit of a register's class. -/
def wBitReg : RegPort → Result
  | .gpr r => .ok (.bits (wBit r.cls))
  | .sreg _ => .err .unsupported
  | .spr _ => .err .unsupported
  | .noFile => .err .unsupported

/-- W_BIT_REG (R194). -/
def execWBitReg (r : RegPort) (s : State) : Out :=
  drive (wBitReg r) s

/-- `sBit`, `toSignExtendBit` (R195): 1 iff an 8-bit immediate is to be sign-extended. -/
def sBit (se : SignExtend) (iw : SizeClass) : BitSeq :=
  if se = .signExtend ∧ iw = .w8 then [true] else [false]

/-- S_BIT (R195). -/
def execSBit (se : SignExtend) (c : SizeClass) (s : State) : Out :=
  drive (.ok (.bits (sBit se c))) s

/-- `dBit` (R196). -/
def dBit (dir : Direction) : BitSeq :=
  if dir = .toReg then [true] else [false]

/-- D_BIT (R196). -/
def execDBit (dir : Direction) (s : State) : Out :=
  drive (.ok (.bits (dBit dir))) s

/-- TTTN (R197). -/
def execTttn (cond : BitVec 4) (s : State) : Out :=
  drive (.ok (.bits (bitsOf cond))) s

end Sys2Proof.Machine
end

