-- ==== Sys2Proof/Machine/ByteAssemblers.lean ====
section
/-! DEFINITION. The opcode, ModR/M, SIB and displacement assemblers (42_byte_assemblers.md rules R220–R226). -/

namespace Sys2Proof.Machine

/-- The 3-bit operation number of ADC and ADD (R221); the ASCII-adjust mnemonics have none. -/
def aluNum : Mnemonic → BitSeq
  | .adc => [false, true, false]
  | .add => [false, false, false]
  | .aaa => []
  | .aas => []
  | .aad => []
  | .aam => []

/-- `opACC` (R221): the accumulator short form. -/
def opAcc (ooo w : BitSeq) : Byte :=
  pack8 ([false, false] ++ ooo ++ [true, false] ++ w)

/-- `opALU_RR` (R221): the register–register form. -/
def opAluRr (ooo d w : BitSeq) : Byte :=
  pack8 ([false, false] ++ ooo ++ [false] ++ d ++ w)

/-- `opGRP1` (R221): immediate group 1. -/
def opGrp1 (s w : BitSeq) : Byte :=
  pack8 ([true, false, false, false, false, false] ++ s ++ w)

/-- `modrm` (R222). -/
def modrm (mod reg rm : BitSeq) : Byte :=
  pack8 (mod ++ reg ++ rm)

/-- `sib` (R222). -/
def sib (scale index base : BitSeq) : Byte :=
  pack8 (scale ++ index ++ base)

/-- ASM_MODRM (R223): every field value is packed, without a check. -/
def execAsmModrm (mod : BitVec 2) (regf rm : BitVec 3) (s : State) : Out :=
  drive (.ok (.bytes [modrm (bitsOf mod) (bitsOf regf) (bitsOf rm)])) s

/-- ASM_SIB (R224): every field value is packed, without a check. -/
def execAsmSib (scale : BitVec 2) (index base : BitVec 3) (s : State) : Out :=
  drive (.ok (.bytes [sib (bitsOf scale) (bitsOf index) (bitsOf base)])) s

/-- ASM_DISP (R225): 8, 16 or 32 bits, the low byte first; there is no 64-bit displacement. -/
def asmDisp : Sized → Result
  | .b8 v => .ok (.bytes [v])
  | .b16 v => .ok (.bytes (leBytes 2 v))
  | .b32 v => .ok (.bytes (leBytes 4 v))
  | .b64 _ => .err .encodingNotRepresentable

/-- ASM_DISP (R225). -/
def execAsmDisp (d : Sized) (s : State) : Out :=
  drive (asmDisp d) s

end Sys2Proof.Machine
end

