-- ==== Sys2Proof/Machine/PrefixBuilders.lean ====
section
/-! DEFINITION. The REX and legacy-prefix builders and the selector the instruction encoders use
(43_prefix_builders.md rules R240–R248). -/

namespace Sys2Proof.Machine

/-- `rexByte` (R240): the high nibble is always 0100. -/
def rexByte (w r x b : BitVec 1) : Byte :=
  pack8 ([false, true, false, false] ++ bitsOf w ++ bitsOf r ++ bitsOf x ++ bitsOf b)

/-- BUILD_REX (R240): a byte even when all four bits are 0. -/
def execBuildRex (w r x b : BitVec 1) (s : State) : Out :=
  drive (.ok (.bytes [rexByte w r x b])) s

/-- `rexPart` (R241): an all-zero REX is left out. -/
def rexPart (w r x b : BitVec 1) : ByteSeq :=
  if w = 0 ∧ r = 0 ∧ x = 0 ∧ b = 0 then [] else [rexByte w r x b]

/-- The bytes of a list of kind codes, in order, if every code names a kind (R242, R243). -/
def kindBytes : List (BitVec 4) → Option ByteSeq
  | [] => some []
  | c :: cs =>
    match PrefixKind.ofCode c, kindBytes cs with
    | some k, some bs => some (k.byte :: bs)
    | _, _ => none

/-- LPFX_EMIT (R243): in the caller's order, with no reordering, deduplication or group check. -/
def lpfxEmit (p : Params) (npk : BitVec 3) (kinds : List (BitVec 4)) : Result :=
  if npk.toNat > p.lpfxMax then .err .unsupported
  else match kindBytes (kinds.take npk.toNat) with
    | some bs => .ok (.bytes bs)
    | none => .err .unsupported

/-- LPFX_EMIT (R243). -/
def execLpfxEmit (npk : BitVec 3) (kinds : List (BitVec 4)) (s : State) : Out :=
  drive (lpfxEmit s.params npk kinds) s

/-- LPFX_RECOG (R244): the group, not the kind. -/
def execLpfxRecog (b : Byte) (s : State) : Out :=
  drive (.ok (.group (prefixGroup b))) s

/-- `needs66` (R246): a 16-bit operand under a 32-bit default, or a 32-bit operand under a 16-bit default. -/
def needs66 (p : Params) (c : SizeClass) (m : Mode) : Bool :=
  (c == .w16 && p.defaultOpsize m == .w32) || (c == .w32 && p.defaultOpsize m == .w16)

/-- `needsRexW` (R247). -/
def needsRexW (c : SizeClass) : Bool :=
  c == .w64

/-- `prefixPart` (R248): the operand-size override, then REX. -/
def prefixPart (p : Params) (c : SizeClass) (m : Mode) : ByteSeq :=
  (if needs66 p c m then [0x66] else []) ++ rexPart (if needsRexW c then 1 else 0) 0 0 0

end Sys2Proof.Machine
end

