-- ==== Sys2Proof/Machine/AluEncoders.lean ====
section
/-! DEFINITION. ENCODE, its dispatch and the ADC/ADD algorithm (44_alu_encoders.md rules R260–R273). -/

namespace Sys2Proof.Machine

/-- An operand that names a 64-bit register (R264). -/
def isReg64 : Operand → Bool
  | .reg r => r.cls == .w64
  | _ => false

/-- An operand that is a memory reference (R266). -/
def isMem : Operand → Bool
  | .mem _ => true
  | _ => false

/-- The shapes of R261. -/
inductive Shape where
  | mem
  | ri (d : Gpr) (v : Sized)
  | rr (d s : Gpr)
  | bad
  deriving DecidableEq, Repr

/-- `shape` (R261): a memory reference in any position first, then the tag order. -/
def shapeOf (ops : List Operand) : Shape :=
  if ops.any isMem then .mem
  else match ops with
    | [.reg d, .imm v] => .ri d v
    | [.reg d, .reg s] => .rr d s
    | _ => .bad

/-- The two kinds of admitted immediate (R265). -/
inductive RiKind where
  | full
  | sext8
  deriving DecidableEq, Repr

/-- `riKind` (R265): the admitted width combinations; `none` is the rule's ⊥. -/
def riKind (w iw : SizeClass) (se : SignExtend) : Option RiKind :=
  match w, iw, se with
  | .w8, .w8, _ => some .full
  | .w16, .w16, _ => some .full
  | .w32, .w32, _ => some .full
  | .w64, .w32, _ => some .full
  | .w16, .w8, .signExtend => some .sext8
  | .w32, .w8, .signExtend => some .sext8
  | .w64, .w8, .signExtend => some .sext8
  | _, _, _ => none

/-- `sField` (R265): s is forced to 0 for an 8-bit destination. -/
def sField (w iw : SizeClass) (se : SignExtend) : BitSeq :=
  if w = .w8 then [false] else sBit se iw

/-- `riEncode` (R267–R269): the accumulator short form for code 0 and a full-width immediate, else group 1. -/
def riEncode (p : Params) (k : Mnemonic) (d : Gpr) (v : Sized) (se : SignExtend) (m : Mode) : Result :=
  match riKind d.cls v.cls se with
  | none => .err .encodingNotRepresentable
  | some kind =>
    if kind = .full ∧ d.code = 0 then
      .ok (.bytes (prefixPart p d.cls m ++ [opAcc (aluNum k) (wBit d.cls)] ++ v.leBytes))
    else
      .ok (.bytes (prefixPart p d.cls m
        ++ [opGrp1 (sField d.cls v.cls se) (wBit d.cls), modrm [true, true] (aluNum k) (bitsOf d.code)]
        ++ v.leBytes))

/-- `rrEncode` (R270, R271): both widths equal; the direction says which field holds the destination. -/
def rrEncode (p : Params) (k : Mnemonic) (d s : Gpr) (dir : Direction) (m : Mode) : Result :=
  if d.cls ≠ s.cls then .err .encodingNotRepresentable
  else
    let regF := if dir = .toRM then s.code else d.code
    let rmF := if dir = .toRM then d.code else s.code
    .ok (.bytes (prefixPart p d.cls m
      ++ [opAluRr (aluNum k) (dBit dir) (wBit d.cls), modrm [true, true] (bitsOf regF) (bitsOf rmF)]))

/-- `alu` (R263): the checks in the rule's order. -/
def alu (p : Params) (k : Mnemonic) (ops : List Operand) (se : SignExtend) (dir : Direction) (m : Mode) : Result :=
  if ops.any isReg64 ∧ m ≠ .bit64 then .err .modeViolation
  else match shapeOf ops with
    | .mem => .err .notYetSupported
    | .bad => .err .encodingNotRepresentable
    | .ri d v => riEncode p k d v se m
    | .rr d s => rrEncode p k d s dir m

/-- The result of ENCODE (R260): the port codes first, `mode` then `nopnd`, then the mnemonic (R273, R319). -/
def encodeResult (p : Params) (mode : BitVec 3) (mn : BitVec 8) (nopnd : BitVec 2) (o0 o1 : Operand)
    (se : SignExtend) (dir : Direction) : Result :=
  match Mode.ofCode mode with
  | none => .err .unsupported
  | some m =>
    match usedOperands nopnd o0 o1 with
    | none => .err .unsupported
    | some ops =>
      match Mnemonic.ofCode mn with
      | some .adc => alu p .adc ops se dir m
      | some .add => alu p .add ops se dir m
      | some .aaa => ascii .aaa ops m
      | some .aas => ascii .aas ops m
      | some .aad => ascii .aad ops m
      | some .aam => ascii .aam ops m
      | none => .err .notYetSupported

/-- ENCODE (R260). -/
def execEncode (mode : BitVec 3) (mn : BitVec 8) (nopnd : BitVec 2) (o0 o1 : Operand) (se : SignExtend)
    (dir : Direction) (s : State) : Out :=
  drive (encodeResult s.params mode mn nopnd o0 o1 se dir) s

end Sys2Proof.Machine
end

