-- ==== Sys2Proof/Machine/AluForms.lean ====
section
/-! DEFINITION. The ADC and ADD forms of ENCODE as rows of the opcode table, their bytes written from the table of
30_encoding.md rule R120 and not from the algorithm of 44_alu_encoders.md; the two must agree. The row's operand-size
prefix is the selector's (R246–R248), and a 64-bit row is legal only in mode Bit64 (R264). -/

namespace Sys2Proof.Machine

/-- A form of operand-size class `c`: its prefixes in the mode, then its bytes (R120, R248, R264). -/
def aluForm (p : Params) (c : SizeClass) (m : Mode) (body : ByteSeq) : Result :=
  if c = .w64 ∧ m ≠ .bit64 then .err .modeViolation
  else .ok (.bytes (prefixPart p c m ++ body))

/-- The ModR/M byte `11 ooo rrr` of a group 1 row: `C0+r` for ADD, `D0+r` for ADC (R120). -/
def grpByte (base : Byte) (r : BitVec 3) : Byte :=
  base + r.setWidth 8

/-- The ModR/M byte of a register–register row: `C0 + 8·reg + rm` (R120). -/
def rrByte (reg rm : BitVec 3) : Byte :=
  0xC0 + 8 * reg.setWidth 8 + rm.setWidth 8

/-- Group 1 with a full-width immediate, after the prefixes. A destination with code 0 is the accumulator, for which
the unit selects the short form (R267). -/
def grpFullBody (short op base : Byte) (r : BitVec 3) (imm : ByteSeq) : ByteSeq :=
  if r = 0 then short :: imm else op :: grpByte base r :: imm

/-- ADD AL, imm8: `04 ib` (R120, R269). -/
def execAddAlImm8 (m : Mode) (v : BitVec 8) (s : State) : Out :=
  drive (aluForm s.params .w8 m (0x04 :: [v])) s

/-- ADD AX, imm16: `[66] 05 iw` (R120, R269). -/
def execAddAxImm16 (m : Mode) (v : BitVec 16) (s : State) : Out :=
  drive (aluForm s.params .w16 m (0x05 :: leBytes 2 v)) s

/-- ADD EAX, imm32: `[66] 05 id` (R120, R269). -/
def execAddEaxImm32 (m : Mode) (v : BitVec 32) (s : State) : Out :=
  drive (aluForm s.params .w32 m (0x05 :: leBytes 4 v)) s

/-- ADD RAX, imm32: `48 05 id` (R120, R269). -/
def execAddRaxImm32 (m : Mode) (v : BitVec 32) (s : State) : Out :=
  drive (aluForm s.params .w64 m (0x05 :: leBytes 4 v)) s

/-- ADD r8, imm8: `80 (C0+r) ib` (R120, R269). -/
def execAddR8Imm8 (m : Mode) (r : BitVec 3) (v : BitVec 8) (s : State) : Out :=
  drive (aluForm s.params .w8 m (grpFullBody 0x04 0x80 0xC0 r [v])) s

/-- ADD r16, imm16: `[66] 81 (C0+r) iw` (R120, R269). -/
def execAddR16Imm16 (m : Mode) (r : BitVec 3) (v : BitVec 16) (s : State) : Out :=
  drive (aluForm s.params .w16 m (grpFullBody 0x05 0x81 0xC0 r (leBytes 2 v))) s

/-- ADD r32, imm32: `[66] 81 (C0+r) id` (R120, R269). -/
def execAddR32Imm32 (m : Mode) (r : BitVec 3) (v : BitVec 32) (s : State) : Out :=
  drive (aluForm s.params .w32 m (grpFullBody 0x05 0x81 0xC0 r (leBytes 4 v))) s

/-- ADD r64, imm32: `48 81 (C0+r) id` (R120, R269). -/
def execAddR64Imm32 (m : Mode) (r : BitVec 3) (v : BitVec 32) (s : State) : Out :=
  drive (aluForm s.params .w64 m (grpFullBody 0x05 0x81 0xC0 r (leBytes 4 v))) s

/-- ADD r16, imm8 sign-extended: `[66] 83 (C0+r) ib` (R120, R269). -/
def execAddR16Imm8sx (m : Mode) (r : BitVec 3) (v : BitVec 8) (s : State) : Out :=
  drive (aluForm s.params .w16 m [0x83, grpByte 0xC0 r, v]) s

/-- ADD r32, imm8 sign-extended: `[66] 83 (C0+r) ib` (R120, R269). -/
def execAddR32Imm8sx (m : Mode) (r : BitVec 3) (v : BitVec 8) (s : State) : Out :=
  drive (aluForm s.params .w32 m [0x83, grpByte 0xC0 r, v]) s

/-- ADD r64, imm8 sign-extended: `48 83 (C0+r) ib` (R120, R269). -/
def execAddR64Imm8sx (m : Mode) (r : BitVec 3) (v : BitVec 8) (s : State) : Out :=
  drive (aluForm s.params .w64 m [0x83, grpByte 0xC0 r, v]) s

/-- ADD r/m8, r8 with d = 0: `00 (C0+8·src+dst)` (R120, R271). -/
def execAddRm8R8 (m : Mode) (dst src : BitVec 3) (s : State) : Out :=
  drive (aluForm s.params .w8 m [0x00, rrByte src dst]) s

/-- ADD r/m16, r16 with d = 0: `[66] 01 (C0+8·src+dst)` (R120, R271). -/
def execAddRm16R16 (m : Mode) (dst src : BitVec 3) (s : State) : Out :=
  drive (aluForm s.params .w16 m [0x01, rrByte src dst]) s

/-- ADD r/m32, r32 with d = 0: `[66] 01 (C0+8·src+dst)` (R120, R271). -/
def execAddRm32R32 (m : Mode) (dst src : BitVec 3) (s : State) : Out :=
  drive (aluForm s.params .w32 m [0x01, rrByte src dst]) s

/-- ADD r/m64, r64 with d = 0: `48 01 (C0+8·src+dst)` (R120, R271). -/
def execAddRm64R64 (m : Mode) (dst src : BitVec 3) (s : State) : Out :=
  drive (aluForm s.params .w64 m [0x01, rrByte src dst]) s

/-- ADD r8, r/m8 with d = 1: `02 (C0+8·dst+src)` (R120, R271). -/
def execAddR8Rm8 (m : Mode) (dst src : BitVec 3) (s : State) : Out :=
  drive (aluForm s.params .w8 m [0x02, rrByte dst src]) s

/-- ADD r16, r/m16 with d = 1: `[66] 03 (C0+8·dst+src)` (R120, R271). -/
def execAddR16Rm16 (m : Mode) (dst src : BitVec 3) (s : State) : Out :=
  drive (aluForm s.params .w16 m [0x03, rrByte dst src]) s

/-- ADD r32, r/m32 with d = 1: `[66] 03 (C0+8·dst+src)` (R120, R271). -/
def execAddR32Rm32 (m : Mode) (dst src : BitVec 3) (s : State) : Out :=
  drive (aluForm s.params .w32 m [0x03, rrByte dst src]) s

/-- ADD r64, r/m64 with d = 1: `48 03 (C0+8·dst+src)` (R120, R271). -/
def execAddR64Rm64 (m : Mode) (dst src : BitVec 3) (s : State) : Out :=
  drive (aluForm s.params .w64 m [0x03, rrByte dst src]) s

/-- ADC AL, imm8: `14 ib` (R120, R268). -/
def execAdcAlImm8 (m : Mode) (v : BitVec 8) (s : State) : Out :=
  drive (aluForm s.params .w8 m (0x14 :: [v])) s

/-- ADC AX, imm16: `[66] 15 iw` (R120, R268). -/
def execAdcAxImm16 (m : Mode) (v : BitVec 16) (s : State) : Out :=
  drive (aluForm s.params .w16 m (0x15 :: leBytes 2 v)) s

/-- ADC EAX, imm32: `[66] 15 id` (R120, R268). -/
def execAdcEaxImm32 (m : Mode) (v : BitVec 32) (s : State) : Out :=
  drive (aluForm s.params .w32 m (0x15 :: leBytes 4 v)) s

/-- ADC RAX, imm32: `48 15 id` (R120, R268). -/
def execAdcRaxImm32 (m : Mode) (v : BitVec 32) (s : State) : Out :=
  drive (aluForm s.params .w64 m (0x15 :: leBytes 4 v)) s

/-- ADC r8, imm8: `80 (D0+r) ib` (R120, R268). -/
def execAdcR8Imm8 (m : Mode) (r : BitVec 3) (v : BitVec 8) (s : State) : Out :=
  drive (aluForm s.params .w8 m (grpFullBody 0x14 0x80 0xD0 r [v])) s

/-- ADC r16, imm16: `[66] 81 (D0+r) iw` (R120, R268). -/
def execAdcR16Imm16 (m : Mode) (r : BitVec 3) (v : BitVec 16) (s : State) : Out :=
  drive (aluForm s.params .w16 m (grpFullBody 0x15 0x81 0xD0 r (leBytes 2 v))) s

/-- ADC r32, imm32: `[66] 81 (D0+r) id` (R120, R268). -/
def execAdcR32Imm32 (m : Mode) (r : BitVec 3) (v : BitVec 32) (s : State) : Out :=
  drive (aluForm s.params .w32 m (grpFullBody 0x15 0x81 0xD0 r (leBytes 4 v))) s

/-- ADC r64, imm32: `48 81 (D0+r) id` (R120, R268). -/
def execAdcR64Imm32 (m : Mode) (r : BitVec 3) (v : BitVec 32) (s : State) : Out :=
  drive (aluForm s.params .w64 m (grpFullBody 0x15 0x81 0xD0 r (leBytes 4 v))) s

/-- ADC r16, imm8 sign-extended: `[66] 83 (D0+r) ib` (R120, R268). -/
def execAdcR16Imm8sx (m : Mode) (r : BitVec 3) (v : BitVec 8) (s : State) : Out :=
  drive (aluForm s.params .w16 m [0x83, grpByte 0xD0 r, v]) s

/-- ADC r32, imm8 sign-extended: `[66] 83 (D0+r) ib` (R120, R268). -/
def execAdcR32Imm8sx (m : Mode) (r : BitVec 3) (v : BitVec 8) (s : State) : Out :=
  drive (aluForm s.params .w32 m [0x83, grpByte 0xD0 r, v]) s

/-- ADC r64, imm8 sign-extended: `48 83 (D0+r) ib` (R120, R268). -/
def execAdcR64Imm8sx (m : Mode) (r : BitVec 3) (v : BitVec 8) (s : State) : Out :=
  drive (aluForm s.params .w64 m [0x83, grpByte 0xD0 r, v]) s

/-- ADC r/m8, r8 with d = 0: `10 (C0+8·src+dst)` (R120, R270). -/
def execAdcRm8R8 (m : Mode) (dst src : BitVec 3) (s : State) : Out :=
  drive (aluForm s.params .w8 m [0x10, rrByte src dst]) s

/-- ADC r/m16, r16 with d = 0: `[66] 11 (C0+8·src+dst)` (R120, R270). -/
def execAdcRm16R16 (m : Mode) (dst src : BitVec 3) (s : State) : Out :=
  drive (aluForm s.params .w16 m [0x11, rrByte src dst]) s

/-- ADC r/m32, r32 with d = 0: `[66] 11 (C0+8·src+dst)` (R120, R270). -/
def execAdcRm32R32 (m : Mode) (dst src : BitVec 3) (s : State) : Out :=
  drive (aluForm s.params .w32 m [0x11, rrByte src dst]) s

/-- ADC r/m64, r64 with d = 0: `48 11 (C0+8·src+dst)` (R120, R270). -/
def execAdcRm64R64 (m : Mode) (dst src : BitVec 3) (s : State) : Out :=
  drive (aluForm s.params .w64 m [0x11, rrByte src dst]) s

/-- ADC r8, r/m8 with d = 1: `12 (C0+8·dst+src)` (R120, R270). -/
def execAdcR8Rm8 (m : Mode) (dst src : BitVec 3) (s : State) : Out :=
  drive (aluForm s.params .w8 m [0x12, rrByte dst src]) s

/-- ADC r16, r/m16 with d = 1: `[66] 13 (C0+8·dst+src)` (R120, R270). -/
def execAdcR16Rm16 (m : Mode) (dst src : BitVec 3) (s : State) : Out :=
  drive (aluForm s.params .w16 m [0x13, rrByte dst src]) s

/-- ADC r32, r/m32 with d = 1: `[66] 13 (C0+8·dst+src)` (R120, R270). -/
def execAdcR32Rm32 (m : Mode) (dst src : BitVec 3) (s : State) : Out :=
  drive (aluForm s.params .w32 m [0x13, rrByte dst src]) s

/-- ADC r64, r/m64 with d = 1: `48 13 (C0+8·dst+src)` (R120, R270). -/
def execAdcR64Rm64 (m : Mode) (dst src : BitVec 3) (s : State) : Out :=
  drive (aluForm s.params .w64 m [0x13, rrByte dst src]) s

end Sys2Proof.Machine
end

