-- ==== Sys2Proof/Machine/BitPrimitives.lean ====
section
/-! DEFINITION. The bit and byte primitives (40_bit_primitives.md rules R160–R174). Each is a total function of its
operands; `exec…` drives its result. -/

namespace Sys2Proof.Machine

/-- LE_SER16 (R161). -/
def execLeSer16 (w : BitVec 16) (s : State) : Out :=
  drive (.ok (.bytes (leBytes 2 w))) s

/-- LE_SER32 (R162). -/
def execLeSer32 (w : BitVec 32) (s : State) : Out :=
  drive (.ok (.bytes (leBytes 4 w))) s

/-- LE_SER64 (R163). -/
def execLeSer64 (w : BitVec 64) (s : State) : Out :=
  drive (.ok (.bytes (leBytes 8 w))) s

/-- LE_DES16 (R164). -/
def execLeDes16 (b0 b1 : Byte) (s : State) : Out :=
  drive (.ok (.word16 (fromLe 16 [b0, b1]))) s

/-- LE_DES32 (R165). -/
def execLeDes32 (b0 b1 b2 b3 : Byte) (s : State) : Out :=
  drive (.ok (.word32 (fromLe 32 [b0, b1, b2, b3]))) s

/-- LE_DES64 (R166). -/
def execLeDes64 (bs : Bytes8) (s : State) : Out :=
  drive (.ok (.word64 (fromLe 64 bs.toList))) s

/-- `validDigit` (R167). -/
def validDigit (d : Int) : Bool :=
  decide (0 ≤ d ∧ d ≤ 7)

/-- GETBIT (R168). -/
def getbit (b : Byte) (d : Int) (o : BitOrder) : Result :=
  if validDigit d then .ok (.bits [b.getLsbD (o.bitOf d.toNat)])
  else .err .outOfRange

/-- GETBIT (R168). -/
def execGetbit (b : Byte) (d : Int) (o : BitOrder) (s : State) : Out :=
  drive (getbit b d o) s

/-- SETBIT (R169). -/
def setbit (b : Byte) (d : Int) (v : BitVec 1) (o : BitOrder) : Result :=
  if validDigit d then .ok (.bytes [putBit b (o.bitOf d.toNat) (v.getLsbD 0)])
  else .err .outOfRange

/-- SETBIT (R169). -/
def execSetbit (b : Byte) (d : Int) (v : BitVec 1) (o : BitOrder) (s : State) : Out :=
  drive (setbit b d v o) s

/-- COPYBIT (R170): one order for both digits. -/
def copybit (src : Byte) (sd : Int) (dst : Byte) (dd : Int) (o : BitOrder) : Result :=
  if validDigit sd ∧ validDigit dd then
    .ok (.bytes [putBit dst (o.bitOf dd.toNat) (src.getLsbD (o.bitOf sd.toNat))])
  else .err .outOfRange

/-- COPYBIT (R170). -/
def execCopybit (src : Byte) (sd : Int) (dst : Byte) (dd : Int) (o : BitOrder) (s : State) : Out :=
  drive (copybit src sd dst dd o) s

/-- The valid sub-range of a run copy: not empty, and both runs inside the byte (R171). -/
def validRun (sd dd n : Int) : Bool :=
  decide (0 ≤ sd ∧ 0 ≤ dd ∧ 1 ≤ n ∧ sd + n ≤ 8 ∧ dd + n ≤ 8)

/-- The loop of R171 over `n` digits, upwards; every source bit is read from the unchanged source byte. -/
def copyRun (o : BitOrder) (src : Byte) (sd dd : Nat) : Nat → Byte → Byte
  | 0, r => r
  | n + 1, r => copyRun o src (sd + 1) (dd + 1) n (putBit r (o.bitOf dd) (src.getLsbD (o.bitOf sd)))

/-- COPYBITS (R171). -/
def copybits (src : Byte) (sd : Int) (dst : Byte) (dd : Int) (n : Int) (o : BitOrder) : Result :=
  if validRun sd dd n then .ok (.bytes [copyRun o src sd.toNat dd.toNat n.toNat dst])
  else .err .outOfRange

/-- COPYBITS (R171). -/
def execCopybits (src : Byte) (sd : Int) (dst : Byte) (dd : Int) (n : Int) (o : BitOrder) (s : State) : Out :=
  drive (copybits src sd dst dd n o) s

/-- PACKBITS (R172): exactly 8 bits, else InvalidArgument. -/
def packbits (bs : BitSeq) (o : BitOrder) : Result :=
  if bs.length = 8 then .ok (.bytes [packBits o bs])
  else .err .invalidArgument

/-- PACKBITS (R172). -/
def execPackbits (bs : BitSeq) (o : BitOrder) (s : State) : Out :=
  drive (packbits bs o) s

/-- UNPACKBITS (R173). -/
def execUnpackbits (b : Byte) (o : BitOrder) (s : State) : Out :=
  drive (.ok (.bits (unpackBits o b))) s

end Sys2Proof.Machine
end

