-- ==== Sys2Proof/Machine/Dispatch.lean ====
section
/-! DEFINITION. One arm per row of spec/opcode_table.json, each one call of the row's meaning. -/

namespace Sys2Proof.Machine

def exec (i : Instr) (s : State) : Host.Outcome State Fault Refusal :=
  match i with
  | .leSer16 w => Sys2Proof.Machine.execLeSer16 w s
  | .leSer32 w => Sys2Proof.Machine.execLeSer32 w s
  | .leSer64 w => Sys2Proof.Machine.execLeSer64 w s
  | .leDes16 b0 b1 => Sys2Proof.Machine.execLeDes16 b0 b1 s
  | .leDes32 b0 b1 b2 b3 => Sys2Proof.Machine.execLeDes32 b0 b1 b2 b3 s
  | .leDes64 bs => Sys2Proof.Machine.execLeDes64 bs s
  | .getbit b d o => Sys2Proof.Machine.execGetbit b d o s
  | .setbit b d v o => Sys2Proof.Machine.execSetbit b d v o s
  | .copybit src sd dst dd o => Sys2Proof.Machine.execCopybit src sd dst dd o s
  | .copybits src sd dst dd n o => Sys2Proof.Machine.execCopybits src sd dst dd n o s
  | .packbits bs o => Sys2Proof.Machine.execPackbits bs o s
  | .unpackbits b o => Sys2Proof.Machine.execUnpackbits b o s
  | .encReg3 r => Sys2Proof.Machine.execEncReg3 r s
  | .encSreg2 r => Sys2Proof.Machine.execEncSreg2 r s
  | .opsizeOf r => Sys2Proof.Machine.execOpsizeOf r s
  | .wBit c => Sys2Proof.Machine.execWBit c s
  | .wBitReg r => Sys2Proof.Machine.execWBitReg r s
  | .sBit se c => Sys2Proof.Machine.execSBit se c s
  | .dBit dir => Sys2Proof.Machine.execDBit dir s
  | .tttn cond => Sys2Proof.Machine.execTttn cond s
  | .asmModrm mod regf rm => Sys2Proof.Machine.execAsmModrm mod regf rm s
  | .asmSib scale index base => Sys2Proof.Machine.execAsmSib scale index base s
  | .asmDisp d => Sys2Proof.Machine.execAsmDisp d s
  | .buildRex w r x b => Sys2Proof.Machine.execBuildRex w r x b s
  | .lpfxEmit npk kinds => Sys2Proof.Machine.execLpfxEmit npk kinds s
  | .lpfxRecog b => Sys2Proof.Machine.execLpfxRecog b s
  | .encode mode mn nopnd o0 o1 se dir => Sys2Proof.Machine.execEncode mode mn nopnd o0 o1 se dir s
  | .addAlImm8 m v => Sys2Proof.Machine.execAddAlImm8 m v s
  | .addAxImm16 m v => Sys2Proof.Machine.execAddAxImm16 m v s
  | .addEaxImm32 m v => Sys2Proof.Machine.execAddEaxImm32 m v s
  | .addRaxImm32 m v => Sys2Proof.Machine.execAddRaxImm32 m v s
  | .addR8Imm8 m r v => Sys2Proof.Machine.execAddR8Imm8 m r v s
  | .addR16Imm16 m r v => Sys2Proof.Machine.execAddR16Imm16 m r v s
  | .addR32Imm32 m r v => Sys2Proof.Machine.execAddR32Imm32 m r v s
  | .addR64Imm32 m r v => Sys2Proof.Machine.execAddR64Imm32 m r v s
  | .addR16Imm8sx m r v => Sys2Proof.Machine.execAddR16Imm8sx m r v s
  | .addR32Imm8sx m r v => Sys2Proof.Machine.execAddR32Imm8sx m r v s
  | .addR64Imm8sx m r v => Sys2Proof.Machine.execAddR64Imm8sx m r v s
  | .addRm8R8 m dst src => Sys2Proof.Machine.execAddRm8R8 m dst src s
  | .addRm16R16 m dst src => Sys2Proof.Machine.execAddRm16R16 m dst src s
  | .addRm32R32 m dst src => Sys2Proof.Machine.execAddRm32R32 m dst src s
  | .addRm64R64 m dst src => Sys2Proof.Machine.execAddRm64R64 m dst src s
  | .addR8Rm8 m dst src => Sys2Proof.Machine.execAddR8Rm8 m dst src s
  | .addR16Rm16 m dst src => Sys2Proof.Machine.execAddR16Rm16 m dst src s
  | .addR32Rm32 m dst src => Sys2Proof.Machine.execAddR32Rm32 m dst src s
  | .addR64Rm64 m dst src => Sys2Proof.Machine.execAddR64Rm64 m dst src s
  | .adcAlImm8 m v => Sys2Proof.Machine.execAdcAlImm8 m v s
  | .adcAxImm16 m v => Sys2Proof.Machine.execAdcAxImm16 m v s
  | .adcEaxImm32 m v => Sys2Proof.Machine.execAdcEaxImm32 m v s
  | .adcRaxImm32 m v => Sys2Proof.Machine.execAdcRaxImm32 m v s
  | .adcR8Imm8 m r v => Sys2Proof.Machine.execAdcR8Imm8 m r v s
  | .adcR16Imm16 m r v => Sys2Proof.Machine.execAdcR16Imm16 m r v s
  | .adcR32Imm32 m r v => Sys2Proof.Machine.execAdcR32Imm32 m r v s
  | .adcR64Imm32 m r v => Sys2Proof.Machine.execAdcR64Imm32 m r v s
  | .adcR16Imm8sx m r v => Sys2Proof.Machine.execAdcR16Imm8sx m r v s
  | .adcR32Imm8sx m r v => Sys2Proof.Machine.execAdcR32Imm8sx m r v s
  | .adcR64Imm8sx m r v => Sys2Proof.Machine.execAdcR64Imm8sx m r v s
  | .adcRm8R8 m dst src => Sys2Proof.Machine.execAdcRm8R8 m dst src s
  | .adcRm16R16 m dst src => Sys2Proof.Machine.execAdcRm16R16 m dst src s
  | .adcRm32R32 m dst src => Sys2Proof.Machine.execAdcRm32R32 m dst src s
  | .adcRm64R64 m dst src => Sys2Proof.Machine.execAdcRm64R64 m dst src s
  | .adcR8Rm8 m dst src => Sys2Proof.Machine.execAdcR8Rm8 m dst src s
  | .adcR16Rm16 m dst src => Sys2Proof.Machine.execAdcR16Rm16 m dst src s
  | .adcR32Rm32 m dst src => Sys2Proof.Machine.execAdcR32Rm32 m dst src s
  | .adcR64Rm64 m dst src => Sys2Proof.Machine.execAdcR64Rm64 m dst src s
  | .aaa m => Sys2Proof.Machine.execAaa m s
  | .aas m => Sys2Proof.Machine.execAas m s
  | .aadImm8 m base => Sys2Proof.Machine.execAadImm8 m base s
  | .aamImm8 m base => Sys2Proof.Machine.execAamImm8 m base s

end Sys2Proof.Machine
end

