-- ==== Sys2Proof/Machine/Step.lean ====
section
/-! DEFINITION. One step: evaluate the request on the input ports and drive its result (10_state.md rules R42, R53;
70_reset_and_hazards.md rules R345 and R347, by which a request takes one step). -/

namespace Sys2Proof.Machine

/-- One step: the instruction the request is, or Unsupported for an `op` code that names no operation (R102). -/
def step (s : State) : Host.Outcome State Fault Refusal :=
  match decodeRequest s.inp with
  | .ok i => exec i s
  | .error _ => raise .unsupported s

/-- The state with the table's instruction `w` presented: its request on the input ports. The unit fetches nothing
(R42), so the next request is where a step takes its instruction from; a form of ENCODE is presented as the ENCODE
request that asks for it. Where `w` is no row, its low byte is presented on `op`. -/
def State.withFetchWord (s : State) (nbits w : Nat) : State :=
  match decodeTableWord nbits w with
  | some i => { s with inp := Sys2Proof.encode s.params i }
  | none => { s with inp := { Request.idle s.params with op := BitVec.ofNat 8 w } }

end Sys2Proof.Machine
end

