-- ==== Sys2Proof/Safety.lean ====
section
/-! DEFINITION. The terms claims about the unit are stated in: what a step's outcome drives, when the ports are
consistent, and a caller that presents one request after another. -/

namespace Sys2Proof.Machine

/-- The outcome drives a byte result and leaves the request and the parameters as they are (R50, R51). It says nothing
of the ports a byte result does not use. -/
def DrivesBytes (o : Out) (s : State) (bs : ByteSeq) : Prop :=
  ∃ t, o = .next t ∧ t.inp = s.inp ∧ t.params = s.params ∧ t.out.ok = 1 ∧
    t.out.len.toNat = bs.length ∧ t.out.bytesOut = some bs

/-- The outcome drives a bit result, element 0 in bit `len` − 1 of `bits_out`, and leaves the request and the
parameters as they are (R50, R51). -/
def DrivesBits (o : Out) (s : State) (bits : BitSeq) : Prop :=
  ∃ t, o = .next t ∧ t.inp = s.inp ∧ t.params = s.params ∧ t.out.ok = 1 ∧
    t.out.len.toNat = bits.length ∧ t.out.bitsOut = some bits

/-- The outcome drives a word result, zero-extended to `word_out`, and leaves the request and the parameters as they
are (R50, R51). It says nothing of `len`, which is a free value there. -/
def DrivesWord (o : Out) (s : State) (v : BitVec 64) : Prop :=
  ∃ t, o = .next t ∧ t.inp = s.inp ∧ t.params = s.params ∧ t.out.ok = 1 ∧ t.out.wordOut = some v

/-- The outcome drives an error: its code, length 0 and no payload; the request and the parameters stay as they are
(R52, R311, R320). -/
def DrivesError (o : Out) (s : State) (e : ErrKind) : Prop :=
  ∃ t, o = .next t ∧ t.inp = s.inp ∧ t.params = s.params ∧ t.out.ok = 0 ∧ t.out.err = e.code ∧
    t.out.len = 0 ∧ t.out.bytesOut = none ∧ t.out.bitsOut = none ∧ t.out.wordOut = none

/-- The output ports hold an error: a code from 1 to 6 and no payload (R52, R311, R312). -/
def OutPorts.isError (o : OutPorts) : Bool :=
  decide (o.ok = 0 ∧ o.err ≠ 0 ∧ o.err ≠ 7 ∧ o.len = 0) && o.bytesOut.isNone && o.bitsOut.isNone && o.wordOut.isNone

/-- The output ports hold a success: exactly one data port has a value, and `len` counts the bytes or bits of it,
which fit their port (R50, R51). -/
def OutPorts.isSuccess (p : Params) (o : OutPorts) : Bool :=
  decide (o.ok = 1 ∧ o.err = 0) &&
    match o.bytesOut, o.bitsOut, o.wordOut with
    | some bs, none, none => decide (bs.length ≤ p.outMax ∧ o.len.toNat = bs.length)
    | none, some s, none => decide (1 ≤ s.length ∧ s.length ≤ 8 ∧ o.len.toNat = s.length)
    | none, none, some _ => true
    | _, _, _ => false

/-- The invariant of the ports: the request fits its ports, and the outputs hold one whole result. -/
def State.Inv (s : State) : Prop :=
  s.params.wf = true ∧ s.inp.wf s.params = true ∧ (s.out.isError = true ∨ s.out.isSuccess s.params = true)

/-- A caller presents requests one after another and lets the unit evaluate each (R57, R89); the state it leaves. A
stop would end it, and there is none. -/
def serve : List Request → State → State
  | [], s => s
  | r :: rs, s =>
    match step (present r s) with
    | .next t => serve rs t
    | .fault _ => s
    | .refused _ => s

end Sys2Proof.Machine
end

