-- ==== Sys2Proof/Laws/State.lean ====
section
/-! SUPPORT. The fields of a state after each update. -/

namespace Sys2Proof.Machine

@[simp] theorem present_inp (r : Request) (s : State) : (present r s).inp = r := rfl

@[simp] theorem present_out (r : Request) (s : State) : (present r s).out = s.out := rfl

@[simp] theorem present_params (r : Request) (s : State) : (present r s).params = s.params := rfl

@[simp] theorem bytesPorts_ok (bs : ByteSeq) : (bytesPorts bs).ok = 1 := rfl

@[simp] theorem bytesPorts_bytesOut (bs : ByteSeq) : (bytesPorts bs).bytesOut = some bs := rfl

@[simp] theorem bytesPorts_bitsOut (bs : ByteSeq) : (bytesPorts bs).bitsOut = none := rfl

@[simp] theorem bytesPorts_wordOut (bs : ByteSeq) : (bytesPorts bs).wordOut = none := rfl

@[simp] theorem bitsPorts_ok (s : BitSeq) : (bitsPorts s).ok = 1 := rfl

@[simp] theorem bitsPorts_bitsOut (s : BitSeq) : (bitsPorts s).bitsOut = some s := rfl

@[simp] theorem bitsPorts_bytesOut (s : BitSeq) : (bitsPorts s).bytesOut = none := rfl

@[simp] theorem wordPorts_ok (n : Nat) (v : BitVec 64) : (wordPorts n v).ok = 1 := rfl

@[simp] theorem wordPorts_wordOut (n : Nat) (v : BitVec 64) : (wordPorts n v).wordOut = some v := rfl

@[simp] theorem wordPorts_bytesOut (n : Nat) (v : BitVec 64) : (wordPorts n v).bytesOut = none := rfl

@[simp] theorem errPorts_ok (e : ErrKind) : (errPorts e).ok = 0 := rfl

@[simp] theorem errPorts_err (e : ErrKind) : (errPorts e).err = e.code := rfl

@[simp] theorem errPorts_len (e : ErrKind) : (errPorts e).len = 0 := rfl

@[simp] theorem errPorts_bytesOut (e : ErrKind) : (errPorts e).bytesOut = none := rfl

@[simp] theorem errPorts_bitsOut (e : ErrKind) : (errPorts e).bitsOut = none := rfl

@[simp] theorem errPorts_wordOut (e : ErrKind) : (errPorts e).wordOut = none := rfl

end Sys2Proof.Machine
end

