-- ==== Sys2Proof/Certificates/Slice0/Obligations.lean ====
section
/-! DEFINITION. The statements about the unit, for the provers. `DrivesBytes`, `DrivesBits`, `DrivesWord` and
`DrivesError` say that an outcome is a next state that holds the given result, the same request and the same
parameters; the state has no other part, so each is its own frame. They say nothing of the ports a result does not
use. A statement holds for every parameters a state may carry, where it does not say otherwise. -/

open Sys2Proof Sys2Proof.Machine

/-! ### Ports and requests -/

/-- R52, R311: an error drives ok = 0, its code (R312) and length 0, and no payload. It changes nothing else
(R320). -/
def Obligations.ErrorDrivesItsCodeAndNoPayload : Prop :=
  ∀ (e : ErrKind) (s : State), ∃ t, raise e s = .next t ∧ t.inp = s.inp ∧ t.params = s.params ∧
    t.out.ok = 0 ∧ t.out.len = 0 ∧ t.out.bytesOut = none ∧ t.out.bitsOut = none ∧ t.out.wordOut = none ∧
    t.out.err =
      (match e with
        | .modeViolation => 1
        | .encodingNotRepresentable => 2
        | .outOfRange => 3
        | .invalidArgument => 4
        | .notYetSupported => 5
        | .unsupported => 6)

/-- R51: how each payload lies on the ports. A bit result has element 0 in bit `len` − 1 of the physical `bits_out`;
a size class is two bits, its code; a group is three bits, 0 for none or the group's number. -/
def Obligations.PayloadLiesOnItsPorts : Prop :=
  (∀ (bs : ByteSeq) (s : State), bs.length ≤ 15 → DrivesBytes (drive (.ok (.bytes bs)) s) s bs) ∧
  (∀ (b : BitSeq) (s : State), b.length ≤ 8 → DrivesBits (drive (.ok (.bits b)) s) s b) ∧
  (∀ (b : BitSeq) (i : Nat), i < b.length → bitsOutBit (resultPorts (.ok (.bits b))) (b.length - 1 - i) = b[i]?) ∧
  (∀ (v : BitVec 16) (s : State), DrivesWord (drive (.ok (.word16 v)) s) s (v.setWidth 64)) ∧
  (∀ (v : BitVec 32) (s : State), DrivesWord (drive (.ok (.word32 v)) s) s (v.setWidth 64)) ∧
  (∀ (v : BitVec 64) (s : State), DrivesWord (drive (.ok (.word64 v)) s) s v) ∧
  (∀ (c : SizeClass) (s : State), DrivesBits (drive (.ok (.size c)) s) s
    (match c with
      | .w8 => [false, false]
      | .w16 => [false, true]
      | .w32 => [true, false]
      | .w64 => [true, true])) ∧
  (∀ (s : State), DrivesBits (drive (.ok (.group none)) s) s [false, false, false]) ∧
  (∀ (s : State), DrivesBits (drive (.ok (.group (some 0))) s) s [false, false, true]) ∧
  (∀ (s : State), DrivesBits (drive (.ok (.group (some 1))) s) s [false, true, false]) ∧
  (∀ (s : State), DrivesBits (drive (.ok (.group (some 2))) s) s [false, true, true]) ∧
  (∀ (s : State), DrivesBits (drive (.ok (.group (some 3))) s) s [true, false, false])

/-- A step runs the instruction the request is; the unit fetches nothing and moves past nothing (R42). -/
def Obligations.StepRunsTheDecodedRequest : Prop :=
  ∀ (s : State) (i : Instr), decodeRequest s.inp = .ok i → step s = exec i s

/-- R102: an `op` code that R101 does not list gives Unsupported. -/
def Obligations.UnlistedOpCodeIsUnsupported : Prop :=
  ∀ s : State,
    s.inp.op ∉ ([0x01, 0x02, 0x03, 0x04, 0x05, 0x06, 0x07, 0x08, 0x09, 0x0A, 0x0B, 0x0C, 0x10, 0x11, 0x12, 0x13,
      0x14, 0x15, 0x16, 0x17, 0x18, 0x19, 0x1A, 0x20, 0x21, 0x22, 0x30] : List (BitVec 8)) →
    DrivesError (step s) s .unsupported

/-- Decode and encode agree: a well-formed instruction, put on the ports, is read back, whatever the parameters. That
an ENCODE request is read as the row its ports name is the model's choice (notes/assumptions/10.md). -/
def Obligations.RequestRoundTrip : Prop :=
  ∀ (p : Params) (i : Instr), i.wf p = true → decodeRequest (encode p i) = .ok i

/-- Every request the ports can carry is read as a well-formed instruction, whatever the parameters. That an ENCODE
request which names a row is read as that row, and so never as ENCODE, is the model's choice (DESIGN CHOICE,
notes/assumptions/10.md). -/
def Obligations.DecodedRequestIsWellFormed : Prop :=
  ∀ (p : Params) (r : Request) (i : Instr), r.wf p = true → decodeRequest r = .ok i → i.wf p = true

/-- Words of the opcode table and the instructions they stand for. The numbering and the modes are the model's
reading (notes/assumptions/11.md). -/
def Obligations.TableWordsDecode : Prop :=
  decodeTableWord 8 0x01 = some (.leSer16 0) ∧
  decodeTableWord 8 0x0A = some (.copybits 0 0 0 0 0 .lsbFirst) ∧
  decodeTableWord 8 0x13 = some (.wBit .w8) ∧
  decodeTableWord 8 0x19 = some (.asmSib 0 0 0) ∧
  decodeTableWord 8 0x20 = some (.buildRex 0 0 0 0) ∧
  decodeTableWord 16 0x4805 = some (.addRaxImm32 .bit64 0) ∧
  decodeTableWord 16 0x80D3 = some (.adcR8Imm8 .protectedMode 3 0) ∧
  decodeTableWord 24 0x81C5 = some (.addR16Imm16 .realAddress 5 0) ∧
  decodeTableWord 24 0x4813C1 = some (.adcR64Rm64 .bit64 0 1) ∧
  decodeTableWord 8 0x3F = some (.aas .protectedMode) ∧
  decodeTableWord 8 0xD4 = some (.aamImm8 .protectedMode 0)

/-- R46, R47, R68, R69: the code of each value in numbers; each code a vocabulary assigns names that one value, and
codes it does not assign name none. -/
def Obligations.PortCodesNameTheirValues : Prop :=
  Mode.ofCode 0 = some .protectedMode ∧ Mode.ofCode 1 = some .realAddress ∧
  Mode.ofCode 2 = some .systemManagement ∧ Mode.ofCode 3 = some .compatibility ∧ Mode.ofCode 4 = some .bit64 ∧
  Mnemonic.ofCode 0 = some .adc ∧ Mnemonic.ofCode 1 = some .add ∧ Mnemonic.ofCode 2 = some .aaa ∧
  Mnemonic.ofCode 3 = some .aas ∧ Mnemonic.ofCode 4 = some .aad ∧ Mnemonic.ofCode 5 = some .aam ∧
  PrefixKind.ofCode 0 = some .lock ∧ PrefixKind.ofCode 1 = some .repne ∧ PrefixKind.ofCode 2 = some .rep ∧
  PrefixKind.ofCode 3 = some .segCs ∧ PrefixKind.ofCode 4 = some .segSs ∧ PrefixKind.ofCode 5 = some .segDs ∧
  PrefixKind.ofCode 6 = some .segEs ∧ PrefixKind.ofCode 7 = some .segFs ∧ PrefixKind.ofCode 8 = some .segGs ∧
  PrefixKind.ofCode 9 = some .branchNotTaken ∧ PrefixKind.ofCode 10 = some .branchTaken ∧
  PrefixKind.ofCode 11 = some .opsize ∧ PrefixKind.ofCode 12 = some .addrsize ∧
  SizeClass.ofCode 0 = .w8 ∧ SizeClass.ofCode 1 = .w16 ∧ SizeClass.ofCode 2 = .w32 ∧ SizeClass.ofCode 3 = .w64 ∧
  (∀ m : Mode, Mode.ofCode m.code = some m) ∧
  (∀ c : BitVec 3, Mode.ofCode c = none ↔ c = 5 ∨ c = 6 ∨ c = 7) ∧
  (∀ k : Mnemonic, Mnemonic.ofCode k.code = some k) ∧
  (∀ c : BitVec 8, Mnemonic.ofCode c = none ↔ 5 < c.toNat) ∧
  (∀ k : PrefixKind, PrefixKind.ofCode k.code = some k) ∧
  (∀ c : BitVec 4, PrefixKind.ofCode c = none ↔ 12 < c.toNat) ∧
  (∀ c : SizeClass, SizeClass.ofCode c.code = c)

/-- R67: `B`, `NAE` and `C` spell one code, 2; every code has a name, and a name spells its code. -/
def Obligations.ConditionAliasesSpellOneCode : Prop :=
  condOfName "B" = some 2 ∧ condOfName "NAE" = some 2 ∧ condOfName "C" = some 2 ∧
  ∀ c : BitVec 4, condNames c ≠ [] ∧ ∀ name ∈ condNames c, condOfName name = some c

/-! ### Bit and byte primitives (40_bit_primitives.md) -/

/-- R161–R163: serialisation emits the least significant byte first. That a 16-bit or 32-bit request reads the low bits
of the 64-bit `word` port is the model's choice (DEDUCED, notes/assumptions/8.md). -/
def Obligations.SerialiseEmitsLowByteFirst : Prop :=
  ∀ s : State,
    (∀ w : BitVec 16, DrivesBytes (exec (.leSer16 w) s) s [w.extractLsb' 0 8, w.extractLsb' 8 8]) ∧
    (∀ w : BitVec 32, DrivesBytes (exec (.leSer32 w) s) s
      [w.extractLsb' 0 8, w.extractLsb' 8 8, w.extractLsb' 16 8, w.extractLsb' 24 8]) ∧
    (∀ w : BitVec 64, DrivesBytes (exec (.leSer64 w) s) s
      [w.extractLsb' 0 8, w.extractLsb' 8 8, w.extractLsb' 16 8, w.extractLsb' 24 8,
       w.extractLsb' 32 8, w.extractLsb' 40 8, w.extractLsb' 48 8, w.extractLsb' 56 8]) ∧
    (s.inp.op = 0x01 → step s = exec (.leSer16 (s.inp.word.setWidth 16)) s) ∧
    (s.inp.op = 0x02 → step s = exec (.leSer32 (s.inp.word.setWidth 32)) s) ∧
    (s.inp.op = 0x03 → step s = exec (.leSer64 s.inp.word) s)

/-- R160, R164–R166: deserialisation is the sum of each byte shifted by eight times its index. That a 16-bit or 32-bit
request reads the first lanes of the eight-byte port is the model's choice (DEDUCED, notes/assumptions/8.md). -/
def Obligations.DeserialiseSumsShiftedBytes : Prop :=
  ∀ s : State,
    (∀ b0 b1 : Byte, DrivesWord (exec (.leDes16 b0 b1) s) s (BitVec.ofNat 64 (b0.toNat + b1.toNat * 2 ^ 8))) ∧
    (∀ b0 b1 b2 b3 : Byte, DrivesWord (exec (.leDes32 b0 b1 b2 b3) s) s
      (BitVec.ofNat 64 (b0.toNat + b1.toNat * 2 ^ 8 + b2.toNat * 2 ^ 16 + b3.toNat * 2 ^ 24))) ∧
    (∀ bs : Bytes8, DrivesWord (exec (.leDes64 bs) s) s
      (BitVec.ofNat 64 (bs.b0.toNat + bs.b1.toNat * 2 ^ 8 + bs.b2.toNat * 2 ^ 16 + bs.b3.toNat * 2 ^ 24 +
        bs.b4.toNat * 2 ^ 32 + bs.b5.toNat * 2 ^ 40 + bs.b6.toNat * 2 ^ 48 + bs.b7.toNat * 2 ^ 56))) ∧
    (s.inp.op = 0x04 → step s = exec (.leDes16 s.inp.bytesIn.b0 s.inp.bytesIn.b1) s) ∧
    (s.inp.op = 0x05 →
      step s = exec (.leDes32 s.inp.bytesIn.b0 s.inp.bytesIn.b1 s.inp.bytesIn.b2 s.inp.bytesIn.b3) s) ∧
    (s.inp.op = 0x06 → step s = exec (.leDes64 s.inp.bytesIn) s)

/-- R85, R160: serialisation and deserialisation are inverse to each other at each width. -/
def Obligations.SerialiseAndDeserialiseAreInverse : Prop :=
  ∀ s : State,
    (∀ w : BitVec 16, ∃ b0 b1, DrivesBytes (exec (.leSer16 w) s) s [b0, b1] ∧
      DrivesWord (exec (.leDes16 b0 b1) s) s (w.setWidth 64)) ∧
    (∀ w : BitVec 32, ∃ b0 b1 b2 b3, DrivesBytes (exec (.leSer32 w) s) s [b0, b1, b2, b3] ∧
      DrivesWord (exec (.leDes32 b0 b1 b2 b3) s) s (w.setWidth 64)) ∧
    (∀ w : BitVec 64, ∃ bs : Bytes8, DrivesBytes (exec (.leSer64 w) s) s bs.toList ∧
      DrivesWord (exec (.leDes64 bs) s) s w) ∧
    (∀ b0 b1 : Byte, ∃ w : BitVec 16, DrivesWord (exec (.leDes16 b0 b1) s) s (w.setWidth 64) ∧
      DrivesBytes (exec (.leSer16 w) s) s [b0, b1]) ∧
    (∀ b0 b1 b2 b3 : Byte, ∃ w : BitVec 32, DrivesWord (exec (.leDes32 b0 b1 b2 b3) s) s (w.setWidth 64) ∧
      DrivesBytes (exec (.leSer32 w) s) s [b0, b1, b2, b3]) ∧
    (∀ bs : Bytes8, ∃ w : BitVec 64, DrivesWord (exec (.leDes64 bs) s) s w ∧
      DrivesBytes (exec (.leSer64 w) s) s bs.toList)

/-- R168: GETBIT reads the bit a valid digit names, and is OutOfRange for every other digit. -/
def Obligations.GetbitReadsTheDigit : Prop :=
  ∀ s : State,
    (∀ (b : Byte) (d : Int) (o : BitOrder),
      (0 ≤ d ∧ d ≤ 7 → DrivesBits (exec (.getbit b d o) s) s
        [b.getLsbD (if o = .lsbFirst then d.toNat else 7 - d.toNat)]) ∧
      (d < 0 ∨ 7 < d → DrivesError (exec (.getbit b d o) s) s .outOfRange)) ∧
    (s.inp.op = 0x07 → step s = exec (.getbit s.inp.byte0 s.inp.digit0.toInt s.inp.order) s)

/-- R169: SETBIT sets the bit a valid digit names and keeps the others, and is OutOfRange for every other digit. -/
def Obligations.SetbitChangesOneBit : Prop :=
  ∀ s : State,
    (∀ (b : Byte) (d : Int) (v : BitVec 1) (o : BitOrder),
      (0 ≤ d ∧ d ≤ 7 → ∃ r : Byte, DrivesBytes (exec (.setbit b d v o) s) s [r] ∧
        ∀ j < 8, r.getLsbD j =
          if j = (if o = .lsbFirst then d.toNat else 7 - d.toNat) then v.getLsbD 0 else b.getLsbD j) ∧
      (d < 0 ∨ 7 < d → DrivesError (exec (.setbit b d v o) s) s .outOfRange)) ∧
    (s.inp.op = 0x08 → step s = exec (.setbit s.inp.byte0 s.inp.digit0.toInt s.inp.bit s.inp.order) s)

/-- R170: COPYBIT replaces the destination's bit by the source's and keeps the others; both digits must be valid. -/
def Obligations.CopybitChangesOneBit : Prop :=
  ∀ s : State,
    (∀ (src : Byte) (sd : Int) (dst : Byte) (dd : Int) (o : BitOrder),
      ((0 ≤ sd ∧ sd ≤ 7) ∧ (0 ≤ dd ∧ dd ≤ 7) →
        ∃ r : Byte, DrivesBytes (exec (.copybit src sd dst dd o) s) s [r] ∧
          ∀ j < 8, r.getLsbD j =
            if j = (if o = .lsbFirst then dd.toNat else 7 - dd.toNat)
            then src.getLsbD (if o = .lsbFirst then sd.toNat else 7 - sd.toNat) else dst.getLsbD j) ∧
      ((sd < 0 ∨ 7 < sd) ∨ (dd < 0 ∨ 7 < dd) →
        DrivesError (exec (.copybit src sd dst dd o) s) s .outOfRange)) ∧
    (s.inp.op = 0x09 →
      step s = exec (.copybit s.inp.byte0 s.inp.digit0.toInt s.inp.byte1 s.inp.digit1.toInt s.inp.order) s)

/-- R171: COPYBITS copies a run that lies inside both bytes, digit by digit from the unchanged source byte, and
keeps the digits outside the run; an empty run or a run past an end is OutOfRange. `k` is the digit of bit `j`. -/
def Obligations.CopybitsCopiesTheRun : Prop :=
  ∀ s : State,
    (∀ (src : Byte) (sd : Int) (dst : Byte) (dd n : Int) (o : BitOrder),
      ((0 ≤ sd ∧ 0 ≤ dd ∧ 1 ≤ n ∧ sd + n ≤ 8 ∧ dd + n ≤ 8) →
        ∃ r : Byte, DrivesBytes (exec (.copybits src sd dst dd n o) s) s [r] ∧
          ∀ k < 8, r.getLsbD (o.bitOf k) =
            if dd.toNat ≤ k ∧ k < dd.toNat + n.toNat then src.getLsbD (o.bitOf (k - dd.toNat + sd.toNat))
            else dst.getLsbD (o.bitOf k)) ∧
      (¬(0 ≤ sd ∧ 0 ≤ dd ∧ 1 ≤ n ∧ sd + n ≤ 8 ∧ dd + n ≤ 8) →
        DrivesError (exec (.copybits src sd dst dd n o) s) s .outOfRange)) ∧
    (s.inp.op = 0x0A → step s = exec (.copybits s.inp.byte0 s.inp.digit0.toInt s.inp.byte1 s.inp.digit1.toInt
      s.inp.count.toInt s.inp.order) s)

/-- R172: PACKBITS puts element `i` at digit `i`; a list whose length is not 8 is InvalidArgument. -/
def Obligations.PackbitsPlacesEachElement : Prop :=
  ∀ s : State,
    (∀ (bs : BitSeq) (o : BitOrder),
      (bs.length = 8 → ∃ r : Byte, DrivesBytes (exec (.packbits bs o) s) s [r] ∧
        ∀ i < 8, some (r.getLsbD (if o = .lsbFirst then i else 7 - i)) = bs[i]?) ∧
      (bs.length ≠ 8 → DrivesError (exec (.packbits bs o) s) s .invalidArgument)) ∧
    (s.inp.op = 0x0B → step s = exec (.packbits s.inp.bseq s.inp.order) s)

/-- R173: UNPACKBITS lists the eight digits of a byte, and undoes PACKBITS in the same order. -/
def Obligations.UnpackbitsUndoesPackbits : Prop :=
  ∀ s : State,
    (∀ b : Byte, DrivesBits (exec (.unpackbits b .lsbFirst) s) s
      [b.getLsbD 0, b.getLsbD 1, b.getLsbD 2, b.getLsbD 3, b.getLsbD 4, b.getLsbD 5, b.getLsbD 6, b.getLsbD 7]) ∧
    (∀ b : Byte, DrivesBits (exec (.unpackbits b .msbFirst) s) s
      [b.getLsbD 7, b.getLsbD 6, b.getLsbD 5, b.getLsbD 4, b.getLsbD 3, b.getLsbD 2, b.getLsbD 1, b.getLsbD 0]) ∧
    (∀ (bs : BitSeq) (o : BitOrder), bs.length = 8 →
      ∃ r : Byte, DrivesBytes (exec (.packbits bs o) s) s [r] ∧ DrivesBits (exec (.unpackbits r o) s) s bs) ∧
    (s.inp.op = 0x0C → step s = exec (.unpackbits s.inp.byte0 s.inp.order) s)

/-! ### Register and field encoders (41_field_encoders.md) -/

/-- R190: ENC_REG3 gives the code of a register of any file, whatever its width; segment codes 6 and 7 and kind 3
name no register and give Unsupported. The code of a special-purpose register is a free value. -/
def Obligations.EncReg3GivesTheCode : Prop :=
  ∀ s : State,
    (∀ r : Gpr, DrivesBits (exec (.encReg3 (.gpr r)) s) s
      [r.code.getLsbD 2, r.code.getLsbD 1, r.code.getLsbD 0]) ∧
    (∀ c : BitVec 3, (c.toNat ≤ 5 → DrivesBits (exec (.encReg3 (.sreg c)) s) s
        [c.getLsbD 2, c.getLsbD 1, c.getLsbD 0]) ∧
      (5 < c.toNat → DrivesError (exec (.encReg3 (.sreg c)) s) s .unsupported)) ∧
    (∀ r : SPR, DrivesBits (exec (.encReg3 (.spr r)) s) s
      [(Config.sprCode r).getLsbD 2, (Config.sprCode r).getLsbD 1, (Config.sprCode r).getLsbD 0]) ∧
    DrivesError (exec (.encReg3 .noFile) s) s .unsupported ∧
    (s.inp.op = 0x10 → step s = exec (.encReg3 s.inp.reg) s)

/-- R191: ENC_SREG2 gives two bits for ES, CS, SS and DS, EncodingNotRepresentable for FS and GS, and Unsupported
for what is no segment register. -/
def Obligations.EncSreg2FitsFourRegisters : Prop :=
  ∀ s : State,
    (∀ c : BitVec 3,
      (c.toNat ≤ 3 → DrivesBits (exec (.encSreg2 (.sreg c)) s) s [c.getLsbD 1, c.getLsbD 0]) ∧
      (c.toNat = 4 ∨ c.toNat = 5 → DrivesError (exec (.encSreg2 (.sreg c)) s) s .encodingNotRepresentable) ∧
      (5 < c.toNat → DrivesError (exec (.encSreg2 (.sreg c)) s) s .unsupported)) ∧
    (∀ r : Gpr, DrivesError (exec (.encSreg2 (.gpr r)) s) s .unsupported) ∧
    (∀ r : SPR, DrivesError (exec (.encSreg2 (.spr r)) s) s .unsupported) ∧
    DrivesError (exec (.encSreg2 .noFile) s) s .unsupported ∧
    (s.inp.op = 0x11 → step s = exec (.encSreg2 s.inp.reg) s)

/-- R192, R194: OPSIZE_OF and W_BIT_REG give a general-purpose register's class and `w` bit, and Unsupported for any
other value. -/
def Obligations.RegisterClassAndWidthBit : Prop :=
  ∀ s : State,
    (∀ c : BitVec 3,
      DrivesBits (exec (.opsizeOf (.gpr ⟨c, .w8⟩)) s) s [false, false] ∧
      DrivesBits (exec (.opsizeOf (.gpr ⟨c, .w16⟩)) s) s [false, true] ∧
      DrivesBits (exec (.opsizeOf (.gpr ⟨c, .w32⟩)) s) s [true, false] ∧
      DrivesBits (exec (.opsizeOf (.gpr ⟨c, .w64⟩)) s) s [true, true] ∧
      DrivesBits (exec (.wBitReg (.gpr ⟨c, .w8⟩)) s) s [false] ∧
      DrivesBits (exec (.wBitReg (.gpr ⟨c, .w16⟩)) s) s [true] ∧
      DrivesBits (exec (.wBitReg (.gpr ⟨c, .w32⟩)) s) s [true] ∧
      DrivesBits (exec (.wBitReg (.gpr ⟨c, .w64⟩)) s) s [true]) ∧
    (∀ r : RegPort, (∀ g, r ≠ .gpr g) →
      DrivesError (exec (.opsizeOf r) s) s .unsupported ∧ DrivesError (exec (.wBitReg r) s) s .unsupported) ∧
    (s.inp.op = 0x12 → step s = exec (.opsizeOf s.inp.reg) s) ∧
    (s.inp.op = 0x14 → step s = exec (.wBitReg s.inp.reg) s)

/-- R193, R195–R197: W_BIT is 0 only for the 8-bit class, S_BIT is 1 only for an 8-bit immediate to be
sign-extended, D_BIT is 1 only for ToReg, and TTTN is the code. -/
def Obligations.FieldBitsOfTheEnumerations : Prop :=
  ∀ s : State,
    (∀ c : SizeClass, DrivesBits (exec (.wBit c) s) s [decide (c ≠ .w8)]) ∧
    (∀ (se : SignExtend) (c : SizeClass), DrivesBits (exec (.sBit se c) s) s
      [decide (se = .signExtend ∧ c = .w8)]) ∧
    (∀ dir : Direction, DrivesBits (exec (.dBit dir) s) s [decide (dir = .toReg)]) ∧
    (∀ c : BitVec 4, DrivesBits (exec (.tttn c) s) s
      [c.getLsbD 3, c.getLsbD 2, c.getLsbD 1, c.getLsbD 0]) ∧
    (s.inp.op = 0x13 → step s = exec (.wBit s.inp.cls) s) ∧
    (s.inp.op = 0x15 → step s = exec (.sBit s.inp.se s.inp.cls) s) ∧
    (s.inp.op = 0x16 → step s = exec (.dBit s.inp.dir) s) ∧
    (s.inp.op = 0x17 → step s = exec (.tttn s.inp.cond) s)

/-! ### Byte assemblers and prefix builders (42_byte_assemblers.md, 43_prefix_builders.md) -/

/-- R222–R224: ModR/M is mod in bits 7:6, reg in bits 5:3 and rm in bits 2:0; SIB likewise. Every field value is
packed. -/
def Obligations.ModrmAndSibPackTheirFields : Prop :=
  ∀ s : State,
    (∀ (mod : BitVec 2) (regf rm : BitVec 3), ∃ r : Byte, DrivesBytes (exec (.asmModrm mod regf rm) s) s [r] ∧
      r.toNat = 64 * mod.toNat + 8 * regf.toNat + rm.toNat) ∧
    (∀ (scale : BitVec 2) (index base : BitVec 3), ∃ r : Byte,
      DrivesBytes (exec (.asmSib scale index base) s) s [r] ∧
      r.toNat = 64 * scale.toNat + 8 * index.toNat + base.toNat) ∧
    (s.inp.op = 0x18 → step s = exec (.asmModrm s.inp.mod s.inp.regf s.inp.rm) s) ∧
    (s.inp.op = 0x19 → step s = exec (.asmSib s.inp.scale s.inp.index s.inp.base) s)

/-- R225: a displacement of 8, 16 or 32 bits is emitted low byte first; one of 64 bits is
EncodingNotRepresentable. That a request reads the low bits of the 64-bit `disp` port is the model's choice (DEDUCED,
notes/assumptions/8.md). -/
def Obligations.DisplacementIsEmittedLowByteFirst : Prop :=
  ∀ s : State,
    (∀ v : BitVec 8, DrivesBytes (exec (.asmDisp (.b8 v)) s) s [v]) ∧
    (∀ v : BitVec 16, DrivesBytes (exec (.asmDisp (.b16 v)) s) s [v.extractLsb' 0 8, v.extractLsb' 8 8]) ∧
    (∀ v : BitVec 32, DrivesBytes (exec (.asmDisp (.b32 v)) s) s
      [v.extractLsb' 0 8, v.extractLsb' 8 8, v.extractLsb' 16 8, v.extractLsb' 24 8]) ∧
    (∀ v : BitVec 64, DrivesError (exec (.asmDisp (.b64 v)) s) s .encodingNotRepresentable) ∧
    (s.inp.op = 0x1A → step s = exec (.asmDisp (Sized.ofPort s.inp.cls s.inp.disp)) s)

/-- R240: BUILD_REX gives 0x40 + 8·W + 4·R + 2·X + B, a byte even when the four bits are 0. -/
def Obligations.RexByteHasItsFixedNibble : Prop :=
  ∀ s : State,
    (∀ w r x b : BitVec 1, ∃ v : Byte, DrivesBytes (exec (.buildRex w r x b) s) s [v] ∧
      v.toNat = 0x40 + 8 * w.toNat + 4 * r.toNat + 2 * x.toNat + b.toNat) ∧
    (s.inp.op = 0x20 → step s = exec (.buildRex s.inp.rexW s.inp.rexR s.inp.rexX s.inp.rexB) s)

/-- R243: LPFX_EMIT gives the byte of each kind in the caller's order, with repeats; a count past `LPFX_MAX`, or a used
code that names no kind, gives Unsupported. The first clause gives the byte of each port code in numbers, the thirteen
rows of R68. -/
def Obligations.PrefixesAreEmittedInCallerOrder : Prop :=
  ∀ s : State,
    (∀ codes : List (BitVec 4), codes.length ≤ 7 → codes.length ≤ s.params.lpfxMax → (∀ c ∈ codes, c.toNat ≤ 12) →
      DrivesBytes (exec (.lpfxEmit (BitVec.ofNat 3 codes.length) codes) s) s
        (codes.map fun c =>
          ([0xF0, 0xF2, 0xF3, 0x2E, 0x36, 0x3E, 0x26, 0x64, 0x65, 0x2E, 0x3E, 0x66, 0x67] : ByteSeq).getD c.toNat 0)) ∧
    (∀ ks : List PrefixKind, ks.length ≤ 7 → ks.length ≤ s.params.lpfxMax →
      DrivesBytes (exec (.lpfxEmit (BitVec.ofNat 3 ks.length) (ks.map PrefixKind.code)) s) s
        (ks.map PrefixKind.byte)) ∧
    (∀ (npk : BitVec 3) (codes : List (BitVec 4)), s.params.lpfxMax < npk.toNat →
      DrivesError (exec (.lpfxEmit npk codes) s) s .unsupported) ∧
    (∀ (npk : BitVec 3) (codes : List (BitVec 4)), (∃ c ∈ codes.take npk.toNat, 12 < c.toNat) →
      DrivesError (exec (.lpfxEmit npk codes) s) s .unsupported) ∧
    (s.inp.op = 0x21 → step s = exec (.lpfxEmit s.inp.npk (s.inp.pkinds.take s.inp.npk.toNat)) s)

/-- R244: LPFX_RECOG gives the group of a legacy-prefix byte, 1 to 4, or none, on three bits of `bits_out`. -/
def Obligations.PrefixByteIsRecognisedByGroup : Prop :=
  ∀ s : State,
    (∀ b ∈ ([0xF0, 0xF2, 0xF3] : List Byte), DrivesBits (exec (.lpfxRecog b) s) s [false, false, true]) ∧
    (∀ b ∈ ([0x2E, 0x36, 0x3E, 0x26, 0x64, 0x65] : List Byte),
      DrivesBits (exec (.lpfxRecog b) s) s [false, true, false]) ∧
    DrivesBits (exec (.lpfxRecog 0x66) s) s [false, true, true] ∧
    DrivesBits (exec (.lpfxRecog 0x67) s) s [true, false, false] ∧
    (∀ b : Byte, b ∉ ([0xF0, 0xF2, 0xF3, 0x2E, 0x36, 0x3E, 0x26, 0x64, 0x65, 0x66, 0x67] : List Byte) →
      DrivesBits (exec (.lpfxRecog b) s) s [false, false, false]) ∧
    (s.inp.op = 0x22 → step s = exec (.lpfxRecog s.inp.byte0) s)

/-- R68, R243, R244: the byte LPFX_EMIT gives for a kind is recognised as the kind's group, on a unit whose `pkinds`
port has a slot for it. -/
def Obligations.EmittedPrefixIsRecognised : Prop :=
  ∀ (k : PrefixKind) (s : State), 1 ≤ s.params.lpfxMax → ∃ b : Byte,
    DrivesBytes (exec (.lpfxEmit 1 [k.code]) s) s [b] ∧
    DrivesBits (exec (.lpfxRecog b) s) s (bitsOf (groupCode (some k.group)))

/-! ### ENCODE (44_alu_encoders.md, 45_ascii_adjust_encoders.md) -/

/-- R260, R273, R319: ENCODE looks at the mode code first, then at the operand count, then at the mnemonic. -/
def Obligations.EncodeChecksPortCodesInOrder : Prop :=
  ∀ (s : State) (mode : BitVec 3) (mn : BitVec 8) (nopnd : BitVec 2) (o0 o1 : Operand) (se : SignExtend)
    (dir : Direction),
    (4 < mode.toNat → DrivesError (exec (.encode mode mn nopnd o0 o1 se dir) s) s .unsupported) ∧
    (mode.toNat ≤ 4 ∧ nopnd = 3 → DrivesError (exec (.encode mode mn nopnd o0 o1 se dir) s) s .unsupported) ∧
    (mode.toNat ≤ 4 ∧ nopnd ≠ 3 ∧ 5 < mn.toNat →
      DrivesError (exec (.encode mode mn nopnd o0 o1 se dir) s) s .notYetSupported)

/-- R263, R264: an ADC or ADD request with a 64-bit register in a used operand port fails with ModeViolation in every
mode but Bit64, whatever else is wrong with it. -/
def Obligations.Register64NeedsMode64 : Prop :=
  ∀ (s : State) (m : Mode) (k : Mnemonic) (nopnd : BitVec 2) (o0 o1 : Operand) (se : SignExtend)
    (dir : Direction) (r : Gpr),
    m ≠ .bit64 → k = .adc ∨ k = .add → r.cls = .w64 →
    (o0 = .reg r ∧ (nopnd = 1 ∨ nopnd = 2)) ∨ (o1 = .reg r ∧ nopnd = 2) →
    DrivesError (exec (.encode m.code k.code nopnd o0 o1 se dir) s) s .modeViolation

/-- R261, R263, R266, R272: with the mode check passed, a memory reference in a used operand port of ADC or ADD gives
NotYetSupported, and any other shape but register–immediate and register–register gives
EncodingNotRepresentable. -/
def Obligations.AluShapesOutsideTheFormsFail : Prop :=
  ∀ (s : State) (m : Mode) (k : Mnemonic) (nopnd : BitVec 2) (o0 o1 : Operand) (se : SignExtend)
    (dir : Direction) (ops : List Operand),
    k = .adc ∨ k = .add → usedOperands nopnd o0 o1 = some ops → (m = .bit64 ∨ ∀ r, .reg r ∈ ops → r.cls ≠ .w64) →
    ((∃ x, .mem x ∈ ops) → DrivesError (exec (.encode m.code k.code nopnd o0 o1 se dir) s) s .notYetSupported) ∧
    ((∀ x, .mem x ∉ ops) → (∀ d v, ops ≠ [.reg d, .imm v]) → (∀ d r, ops ≠ [.reg d, .reg r]) →
      DrivesError (exec (.encode m.code k.code nopnd o0 o1 se dir) s) s .encodingNotRepresentable)

/-- R262, R264–R269: ADC and ADD with a register and an immediate, in numbers. The widths admitted are equal ones but
64, a 32-bit immediate for a 64-bit register, and a sign-extended 8-bit immediate for a wider register; the bytes are
the prefixes, the short form for code 0 and a full-width immediate or else group 1 and ModR/M, and the immediate at
its own width; every other width pair is EncodingNotRepresentable. -/
def Obligations.EncodeRegisterImmediate : Prop :=
  ∀ (s : State) (m : Mode) (adc : Bool) (d : Gpr) (v : Sized) (se : SignExtend) (dir : Direction),
    (d.cls = .w64 → m = .bit64) →
    let full : Bool := (v.cls == d.cls && d.cls != .w64) || (d.cls == .w64 && v.cls == .w32)
    let sext : Bool := d.cls != .w8 && v.cls == .w8 && se == .signExtend
    let pre : ByteSeq :=
      if d.cls = .w64 then [0x48]
      else if (d.cls = .w16 ∧ s.params.defaultOpsize m = .w32) ∨ (d.cls = .w32 ∧ s.params.defaultOpsize m = .w16)
        then [0x66] else []
    let w : Byte := if d.cls = .w8 then 0 else 1
    let o := exec (.encode m.code (if adc then 0 else 1) 2 (.reg d) (.imm v) se dir) s
    (full ∧ d.code = 0 → DrivesBytes o s (pre ++ [(if adc then 0x14 else 0x04) + w] ++ v.leBytes)) ∧
    (full ∧ d.code ≠ 0 → DrivesBytes o s
      (pre ++ [0x80 + w, (if adc then 0xD0 else 0xC0) + d.code.setWidth 8] ++ v.leBytes)) ∧
    (sext → DrivesBytes o s (pre ++ [0x83, (if adc then 0xD0 else 0xC0) + d.code.setWidth 8] ++ v.leBytes)) ∧
    (¬ full ∧ ¬ sext → DrivesError o s .encodingNotRepresentable)

/-- R264, R270, R271: ADC and ADD with two registers, in numbers. Of one width, the bytes are the prefixes, the opcode
with d and w, and ModR/M 11 with the source or the destination in reg, as the direction says; of two widths it is
EncodingNotRepresentable. -/
def Obligations.EncodeRegisterRegister : Prop :=
  ∀ (s : State) (m : Mode) (adc : Bool) (d r : Gpr) (se : SignExtend) (dir : Direction),
    (d.cls = .w64 ∨ r.cls = .w64 → m = .bit64) →
    let pre : ByteSeq :=
      if d.cls = .w64 then [0x48]
      else if (d.cls = .w16 ∧ s.params.defaultOpsize m = .w32) ∨ (d.cls = .w32 ∧ s.params.defaultOpsize m = .w16)
        then [0x66] else []
    let w : Byte := if d.cls = .w8 then 0 else 1
    let o := exec (.encode m.code (if adc then 0 else 1) 2 (.reg d) (.reg r) se dir) s
    (d.cls = r.cls ∧ dir = .toRM → DrivesBytes o s
      (pre ++ [(if adc then 0x10 else 0x00) + w, 0xC0 + 8 * r.code.setWidth 8 + d.code.setWidth 8])) ∧
    (d.cls = r.cls ∧ dir = .toReg → DrivesBytes o s
      (pre ++ [(if adc then 0x12 else 0x02) + w, 0xC0 + 8 * d.code.setWidth 8 + r.code.setWidth 8])) ∧
    (d.cls ≠ r.cls → DrivesError o s .encodingNotRepresentable)

/-- R290–R292: ENCODE of AAA and AAS, and their rows: one byte in the four modes that define the family; with any
operand EncodingNotRepresentable; in Bit64 ModeViolation before any look at the operands. -/
def Obligations.AaaAndAasEmitOneByte : Prop :=
  ∀ (s : State) (m : Mode) (o0 o1 : Operand) (se : SignExtend) (dir : Direction),
    (m ≠ .bit64 →
      DrivesBytes (exec (.aaa m) s) s [0x37] ∧
      DrivesBytes (exec (.aas m) s) s [0x3F] ∧
      DrivesBytes (exec (.encode m.code 2 0 o0 o1 se dir) s) s [0x37] ∧
      DrivesBytes (exec (.encode m.code 3 0 o0 o1 se dir) s) s [0x3F] ∧
      ∀ n : BitVec 2, n = 1 ∨ n = 2 →
        DrivesError (exec (.encode m.code 2 n o0 o1 se dir) s) s .encodingNotRepresentable ∧
        DrivesError (exec (.encode m.code 3 n o0 o1 se dir) s) s .encodingNotRepresentable) ∧
    (m = .bit64 →
      DrivesError (exec (.aaa m) s) s .modeViolation ∧
      DrivesError (exec (.aas m) s) s .modeViolation ∧
      ∀ n : BitVec 2, n ≠ 3 →
        DrivesError (exec (.encode m.code 2 n o0 o1 se dir) s) s .modeViolation ∧
        DrivesError (exec (.encode m.code 3 n o0 o1 se dir) s) s .modeViolation)

/-- R290, R293, R294: ENCODE of AAD and AAM, and their rows: the opcode and the base as given, 10 when there is none;
any other operand list is EncodingNotRepresentable; in Bit64 ModeViolation before any look at the operands. -/
def Obligations.AadAndAamEmitTheBase : Prop :=
  ∀ (s : State) (m : Mode) (o0 o1 : Operand) (base : Byte) (se : SignExtend) (dir : Direction),
    (m ≠ .bit64 →
      DrivesBytes (exec (.aadImm8 m base) s) s [0xD5, base] ∧
      DrivesBytes (exec (.aamImm8 m base) s) s [0xD4, base] ∧
      DrivesBytes (exec (.encode m.code 4 0 o0 o1 se dir) s) s [0xD5, 0x0A] ∧
      DrivesBytes (exec (.encode m.code 5 0 o0 o1 se dir) s) s [0xD4, 0x0A] ∧
      DrivesBytes (exec (.encode m.code 4 1 (.imm (.b8 base)) o1 se dir) s) s [0xD5, base] ∧
      DrivesBytes (exec (.encode m.code 5 1 (.imm (.b8 base)) o1 se dir) s) s [0xD4, base] ∧
      ∀ n : BitVec 2, n = 2 ∨ (n = 1 ∧ ∀ b, o0 ≠ .imm (.b8 b)) →
        DrivesError (exec (.encode m.code 4 n o0 o1 se dir) s) s .encodingNotRepresentable ∧
        DrivesError (exec (.encode m.code 5 n o0 o1 se dir) s) s .encodingNotRepresentable) ∧
    (m = .bit64 →
      DrivesError (exec (.aadImm8 m base) s) s .modeViolation ∧
      DrivesError (exec (.aamImm8 m base) s) s .modeViolation ∧
      ∀ n : BitVec 2, n ≠ 3 →
        DrivesError (exec (.encode m.code 4 n o0 o1 se dir) s) s .modeViolation ∧
        DrivesError (exec (.encode m.code 5 n o0 o1 se dir) s) s .modeViolation)

/-! ### The rows of the opcode table -/

/-- The accumulator rows of ADD and ADC, byte for byte (R120). The operand-size override stands where R246 selects
it. -/
def Obligations.AccumulatorRowsEmitTheShortForm : Prop :=
  ∀ (s : State) (m : Mode) (v8 : BitVec 8) (v16 : BitVec 16) (v32 : BitVec 32),
    let p16 : ByteSeq := if s.params.defaultOpsize m = .w32 then [0x66] else []
    let p32 : ByteSeq := if s.params.defaultOpsize m = .w16 then [0x66] else []
    let iw : ByteSeq := [v16.extractLsb' 0 8, v16.extractLsb' 8 8]
    let id : ByteSeq := [v32.extractLsb' 0 8, v32.extractLsb' 8 8, v32.extractLsb' 16 8, v32.extractLsb' 24 8]
    DrivesBytes (exec (.addAlImm8 m v8) s) s [0x04, v8] ∧
    DrivesBytes (exec (.addAxImm16 m v16) s) s (p16 ++ 0x05 :: iw) ∧
    DrivesBytes (exec (.addEaxImm32 m v32) s) s (p32 ++ 0x05 :: id) ∧
    DrivesBytes (exec (.addRaxImm32 .bit64 v32) s) s (0x48 :: 0x05 :: id) ∧
    DrivesBytes (exec (.adcAlImm8 m v8) s) s [0x14, v8] ∧
    DrivesBytes (exec (.adcAxImm16 m v16) s) s (p16 ++ 0x15 :: iw) ∧
    DrivesBytes (exec (.adcEaxImm32 m v32) s) s (p32 ++ 0x15 :: id) ∧
    DrivesBytes (exec (.adcRaxImm32 .bit64 v32) s) s (0x48 :: 0x15 :: id)

/-- The ModR/M rows of a full-width immediate, byte for byte (R120), for every register but the accumulator, which
has the short form (R267). -/
def Obligations.GroupRowsEmitTheFullImmediate : Prop :=
  ∀ (s : State) (m : Mode) (r : BitVec 3) (v8 : BitVec 8) (v16 : BitVec 16) (v32 : BitVec 32), r ≠ 0 →
    let p16 : ByteSeq := if s.params.defaultOpsize m = .w32 then [0x66] else []
    let p32 : ByteSeq := if s.params.defaultOpsize m = .w16 then [0x66] else []
    let iw : ByteSeq := [v16.extractLsb' 0 8, v16.extractLsb' 8 8]
    let id : ByteSeq := [v32.extractLsb' 0 8, v32.extractLsb' 8 8, v32.extractLsb' 16 8, v32.extractLsb' 24 8]
    let c0 : Byte := 0xC0 + r.setWidth 8
    let d0 : Byte := 0xD0 + r.setWidth 8
    DrivesBytes (exec (.addR8Imm8 m r v8) s) s [0x80, c0, v8] ∧
    DrivesBytes (exec (.addR16Imm16 m r v16) s) s (p16 ++ 0x81 :: c0 :: iw) ∧
    DrivesBytes (exec (.addR32Imm32 m r v32) s) s (p32 ++ 0x81 :: c0 :: id) ∧
    DrivesBytes (exec (.addR64Imm32 .bit64 r v32) s) s (0x48 :: 0x81 :: c0 :: id) ∧
    DrivesBytes (exec (.adcR8Imm8 m r v8) s) s [0x80, d0, v8] ∧
    DrivesBytes (exec (.adcR16Imm16 m r v16) s) s (p16 ++ 0x81 :: d0 :: iw) ∧
    DrivesBytes (exec (.adcR32Imm32 m r v32) s) s (p32 ++ 0x81 :: d0 :: id) ∧
    DrivesBytes (exec (.adcR64Imm32 .bit64 r v32) s) s (0x48 :: 0x81 :: d0 :: id)

/-- The rows of a sign-extended imm8, byte for byte (R120), for every register, the accumulator among them. -/
def Obligations.SignExtendedRowsEmitOneImmediateByte : Prop :=
  ∀ (s : State) (m : Mode) (r : BitVec 3) (v : BitVec 8),
    let p16 : ByteSeq := if s.params.defaultOpsize m = .w32 then [0x66] else []
    let p32 : ByteSeq := if s.params.defaultOpsize m = .w16 then [0x66] else []
    let c0 : Byte := 0xC0 + r.setWidth 8
    let d0 : Byte := 0xD0 + r.setWidth 8
    DrivesBytes (exec (.addR16Imm8sx m r v) s) s (p16 ++ [0x83, c0, v]) ∧
    DrivesBytes (exec (.addR32Imm8sx m r v) s) s (p32 ++ [0x83, c0, v]) ∧
    DrivesBytes (exec (.addR64Imm8sx .bit64 r v) s) s [0x48, 0x83, c0, v] ∧
    DrivesBytes (exec (.adcR16Imm8sx m r v) s) s (p16 ++ [0x83, d0, v]) ∧
    DrivesBytes (exec (.adcR32Imm8sx m r v) s) s (p32 ++ [0x83, d0, v]) ∧
    DrivesBytes (exec (.adcR64Imm8sx .bit64 r v) s) s [0x48, 0x83, d0, v]

/-- The register–register rows, byte for byte (R120), with the ModR/M byte as a number. -/
def Obligations.RegisterRowsEmitBothCodes : Prop :=
  ∀ (s : State) (m : Mode) (dst src : BitVec 3),
    let p16 : ByteSeq := if s.params.defaultOpsize m = .w32 then [0x66] else []
    let p32 : ByteSeq := if s.params.defaultOpsize m = .w16 then [0x66] else []
    let toRM : Byte := BitVec.ofNat 8 (0xC0 + 8 * src.toNat + dst.toNat)
    let toReg : Byte := BitVec.ofNat 8 (0xC0 + 8 * dst.toNat + src.toNat)
    DrivesBytes (exec (.addRm8R8 m dst src) s) s [0x00, toRM] ∧
    DrivesBytes (exec (.addRm16R16 m dst src) s) s (p16 ++ [0x01, toRM]) ∧
    DrivesBytes (exec (.addRm32R32 m dst src) s) s (p32 ++ [0x01, toRM]) ∧
    DrivesBytes (exec (.addRm64R64 .bit64 dst src) s) s [0x48, 0x01, toRM] ∧
    DrivesBytes (exec (.addR8Rm8 m dst src) s) s [0x02, toReg] ∧
    DrivesBytes (exec (.addR16Rm16 m dst src) s) s (p16 ++ [0x03, toReg]) ∧
    DrivesBytes (exec (.addR32Rm32 m dst src) s) s (p32 ++ [0x03, toReg]) ∧
    DrivesBytes (exec (.addR64Rm64 .bit64 dst src) s) s [0x48, 0x03, toReg] ∧
    DrivesBytes (exec (.adcRm8R8 m dst src) s) s [0x10, toRM] ∧
    DrivesBytes (exec (.adcRm16R16 m dst src) s) s (p16 ++ [0x11, toRM]) ∧
    DrivesBytes (exec (.adcRm32R32 m dst src) s) s (p32 ++ [0x11, toRM]) ∧
    DrivesBytes (exec (.adcRm64R64 .bit64 dst src) s) s [0x48, 0x11, toRM] ∧
    DrivesBytes (exec (.adcR8Rm8 m dst src) s) s [0x12, toReg] ∧
    DrivesBytes (exec (.adcR16Rm16 m dst src) s) s (p16 ++ [0x13, toReg]) ∧
    DrivesBytes (exec (.adcR32Rm32 m dst src) s) s (p32 ++ [0x13, toReg]) ∧
    DrivesBytes (exec (.adcR64Rm64 .bit64 dst src) s) s [0x48, 0x13, toReg]

/-- R264: the 64-bit rows fail with ModeViolation in every mode but Bit64. -/
def Obligations.Rows64FailOutsideMode64 : Prop :=
  ∀ (s : State) (m : Mode) (a b : BitVec 3) (v8 : BitVec 8) (v32 : BitVec 32), m ≠ .bit64 →
    ∀ i ∈ ([.addRaxImm32 m v32, .addR64Imm32 m a v32, .addR64Imm8sx m a v8, .addRm64R64 m a b, .addR64Rm64 m a b,
      .adcRaxImm32 m v32, .adcR64Imm32 m a v32, .adcR64Imm8sx m a v8, .adcRm64R64 m a b,
      .adcR64Rm64 m a b] : List Instr),
    DrivesError (exec i s) s .modeViolation

/-- ENCODE's algorithm (R260–R272, R290–R294) and the table of R120 agree: where the ports of an ENCODE request name a
row, ENCODE does what the row does, in every mode. So a step whose `op` is 0x30 is ENCODE of what the ports it reads
hold, whether or not they name a row. -/
def Obligations.EncodeAgreesWithItsRow : Prop :=
  (∀ (mode : BitVec 3) (mn : BitVec 8) (nopnd : BitVec 2) (o0 o1 : Operand) (se : SignExtend) (dir : Direction)
    (i : Instr), formOf mode mn nopnd o0 o1 se dir = some i →
    ∀ s : State, exec (.encode mode mn nopnd o0 o1 se dir) s = exec i s) ∧
  ∀ s : State, s.inp.op = 0x30 →
    step s = exec (.encode s.inp.mode s.inp.mn s.inp.nopnd s.inp.opnd0 s.inp.opnd1 s.inp.se s.inp.dir) s

/-- R275: every result of ENCODE is an error or the bytes of a row; the row is the one its ports name. -/
def Obligations.EncodeSucceedsOnlyOnRows : Prop :=
  ∀ (mode : BitVec 3) (mn : BitVec 8) (nopnd : BitVec 2) (o0 o1 : Operand) (se : SignExtend) (dir : Direction)
    (s : State),
    (∃ e, DrivesError (exec (.encode mode mn nopnd o0 o1 se dir) s) s e) ∨
    (∃ i m bs, formOf mode mn nopnd o0 o1 se dir = some i ∧ i.formMode = some m ∧
      DrivesBytes (exec (.encode mode mn nopnd o0 o1 se dir) s) s bs ∧ DrivesBytes (exec i s) s bs)

/-- A byte result of ENCODE has 1 to 7 bytes: the spec's own derivation (R118). -/
def Obligations.EncodeEmitsAtMostSevenBytes : Prop :=
  ∀ (mode : BitVec 3) (mn : BitVec 8) (nopnd : BitVec 2) (o0 o1 : Operand) (se : SignExtend) (dir : Direction)
    (s t : State) (bs : ByteSeq),
    exec (.encode mode mn nopnd o0 o1 se dir) s = .next t → t.out.bytesOut = some bs →
    1 ≤ bs.length ∧ bs.length ≤ 7

/-- The spec's own derivation (R131): what ENCODE emits is nothing, 0x66 or, in mode Bit64 only, 0x48, and then an
opcode of R120. So opcode 0x82, the address-size override, a REX byte outside Bit64, another REX byte, and the
ASCII-adjust opcodes in Bit64 are never emitted. -/
def Obligations.EncodeEmitsOnlyAdmittedPatterns : Prop :=
  ∀ (mode : BitVec 3) (mn : BitVec 8) (nopnd : BitVec 2) (o0 o1 : Operand) (se : SignExtend) (dir : Direction)
    (s t : State) (bs : ByteSeq),
    exec (.encode mode mn nopnd o0 o1 se dir) s = .next t → t.out.bytesOut = some bs →
    ∃ (pre : ByteSeq) (op : Byte) (tail : ByteSeq), bs = pre ++ op :: tail ∧
      (pre = [] ∨ pre = [0x66] ∨ (pre = [0x48] ∧ mode = 4)) ∧
      op ∈ ([0x00, 0x01, 0x02, 0x03, 0x04, 0x05, 0x10, 0x11, 0x12, 0x13, 0x14, 0x15, 0x37, 0x3F, 0x80, 0x81, 0x83,
        0xD4, 0xD5] : List Byte) ∧
      (mode = 4 → op ∉ ([0x37, 0x3F, 0xD4, 0xD5] : List Byte))

/-- R274: the bytes a form emits, read in its mode by an x86 decoder (R119) and followed by any bytes, are read back
as the same form with the same operands, and the decoder stops where they end, on every unit whose default widths are
16 or 32 bits. The decoder is the model's, written from the informative R119 (notes/assumptions/12.md). -/
def Obligations.EmittedBytesDecodeBack : Prop :=
  ∀ (i : Instr) (m : Mode) (s : State) (bs rest : ByteSeq), s.params.wf = true → i.wf s.params = true →
    i.formMode = some m → DrivesBytes (exec i s) s bs → decodeBytes s.params m (bs ++ rest) = .ok (i, rest)

/-- R111, R119, R245: a caller's prefixes other than the operand-size override, emitted by LPFX_EMIT and put before
the bytes of a form, leave the instruction read from them the same. The decoder is the model's
(notes/assumptions/12.md). -/
def Obligations.CallerPrefixesKeepTheInstruction : Prop :=
  ∀ (i : Instr) (m : Mode) (s : State) (ks : List PrefixKind) (pre bs rest : ByteSeq),
    s.params.wf = true → i.wf s.params = true → i.formMode = some m → ks.length ≤ 7 → ks.length ≤ s.params.lpfxMax →
    .opsize ∉ ks →
    DrivesBytes (exec (.lpfxEmit (BitVec.ofNat 3 ks.length) (ks.map PrefixKind.code)) s) s pre →
    DrivesBytes (exec i s) s bs → decodeBytes s.params m (pre ++ bs ++ rest) = .ok (i, rest)

/-- R220–R222, R261–R271: every instruction of ADC and ADD that ENCODE emits is what the primitives give, put one after
the other (95_test_vectors.md, program P5). `pre` is BUILD_REX's byte for 64 bits, LPFX_EMIT's 0x66 where R246 wants it,
else nothing; the fields w, s and d are W_BIT's, S_BIT's and D_BIT's; the opcodes `acc`, `grp` and `rr` are PACKBITS of
the fixed bits and the fields, with s = 0 for an 8-bit destination (R265); the ModR/M bytes are ASM_MODRM's; `imm` is
the immediate, serialised where it is wider than a byte. The accumulator's short form, group 1 with a full-width or a
sign-extended immediate, and two registers of one width follow. -/
def Obligations.EncodeIsComposedOfThePrimitives : Prop :=
  ∀ (s : State) (m : Mode) (adc : Bool) (d r : Gpr) (v : Sized) (se : SignExtend) (dir : Direction),
    1 ≤ s.params.lpfxMax → (d.cls = .w64 → m = .bit64) →
    let full : Bool := (v.cls == d.cls && d.cls != .w64) || (d.cls == .w64 && v.cls == .w32)
    let sext : Bool := d.cls != .w8 && v.cls == .w8 && se == .signExtend
    let override : Prop :=
      (d.cls = .w16 ∧ s.params.defaultOpsize m = .w32) ∨ (d.cls = .w32 ∧ s.params.defaultOpsize m = .w16)
    let k : BitVec 8 := if adc then 0 else 1
    ∃ (pre imm : ByteSeq) (w sb db : Bool) (acc grp rr mrImm mrReg : Byte),
      (d.cls = .w64 → DrivesBytes (exec (.buildRex 1 0 0 0) s) s pre) ∧
      (override → DrivesBytes (exec (.lpfxEmit 1 [11]) s) s pre) ∧
      (d.cls ≠ .w64 ∧ ¬ override → pre = []) ∧
      (match v with
        | .b8 x => imm = [x]
        | .b16 x => DrivesBytes (exec (.leSer16 x) s) s imm
        | .b32 x => DrivesBytes (exec (.leSer32 x) s) s imm
        | .b64 x => DrivesBytes (exec (.leSer64 x) s) s imm) ∧
      DrivesBits (exec (.wBit d.cls) s) s [w] ∧
      DrivesBits (exec (.sBit se v.cls) s) s [sb] ∧
      DrivesBits (exec (.dBit dir) s) s [db] ∧
      DrivesBytes (exec (.packbits [false, false, false, adc, false, true, false, w] .msbFirst) s) s [acc] ∧
      DrivesBytes (exec (.packbits [true, false, false, false, false, false, d.cls != .w8 && sb, w] .msbFirst) s) s
        [grp] ∧
      DrivesBytes (exec (.packbits [false, false, false, adc, false, false, db, w] .msbFirst) s) s [rr] ∧
      DrivesBytes (exec (.asmModrm 3 (if adc then 2 else 0) d.code) s) s [mrImm] ∧
      DrivesBytes (exec (if dir = .toRM then .asmModrm 3 r.code d.code else .asmModrm 3 d.code r.code) s) s [mrReg] ∧
      (full ∧ d.code = 0 →
        DrivesBytes (exec (.encode m.code k 2 (.reg d) (.imm v) se dir) s) s (pre ++ acc :: imm)) ∧
      ((full ∧ d.code ≠ 0) ∨ sext →
        DrivesBytes (exec (.encode m.code k 2 (.reg d) (.imm v) se dir) s) s (pre ++ grp :: mrImm :: imm)) ∧
      (d.cls = r.cls →
        DrivesBytes (exec (.encode m.code k 2 (.reg d) (.reg r) se dir) s) s (pre ++ [rr, mrReg]))

/-! ### The whole unit -/

/-- R53, R55, R310: two states of units with the same parameters and with the same request get the same outputs, which
one step drives; every request gets a result and none stops. -/
def Obligations.OutputIsAFunctionOfTheRequest : Prop :=
  ∀ s t : State, s.params = t.params → s.inp = t.inp →
    ∃ o : OutPorts, step s = .next { s with out := o } ∧ step t = .next { t with out := o }

/-- R10, R88, R343, R345: a step keeps the request and the parameters, and evaluating the request again changes
nothing. -/
def Obligations.StepSettles : Prop :=
  ∀ s t : State, step s = .next t → t.inp = s.inp ∧ t.params = s.params ∧ step t = .next t

/-- R89, R321: whatever requests were served before, with whatever errors, a request gets the result it would get
first. -/
def Obligations.HistoryDoesNotChangeAResult : Prop :=
  ∀ (history : List Request) (r : Request) (s : State),
    step (present r (serve history s)) = step (present r s)

/-- The invariant of the ports (R50–R52, R310–R312) is kept by every step. That `err` is 0 on a success, and that
unused data ports carry no value then, is the model's choice (notes/assumptions/2.md and 4.md). -/
def Obligations.StepKeepsThePortInvariant : Prop :=
  ∀ s t : State, s.Inv → step s = .next t → t.Inv

/-- The invariant holds after power-on. The state after power-on is the model's choice (notes/assumptions/1.md). -/
def Obligations.PowerOnMeetsThePortInvariant : Prop :=
  State.reset.Inv ∧ step State.reset = .next State.reset

/-- R9, R46: the parameters after power-on are the defaults R9 gives. -/
def Obligations.PowerOnHasTheDefaultParameters : Prop :=
  State.reset.params.defaultOpsize .protectedMode = .w32 ∧ State.reset.params.defaultOpsize .realAddress = .w16 ∧
  State.reset.params.defaultOpsize .systemManagement = .w16 ∧
  State.reset.params.defaultOpsize .compatibility = .w32 ∧ State.reset.params.defaultOpsize .bit64 = .w32 ∧
  State.reset.params.lpfxMax = 4 ∧ State.reset.params.outMax = 15 ∧ State.reset.params.bseqMax = 15

/-- R313–R315, R317, R318: which operation raises which error. Only ENCODE raises ModeViolation and NotYetSupported;
only ENC_SREG2, ASM_DISP and ENCODE raise EncodingNotRepresentable; only the single-bit primitives raise OutOfRange;
only PACKBITS raises InvalidArgument. -/
def Obligations.ErrorsComeFromTheirOperations : Prop :=
  ∀ s t : State, step s = .next t → t.out.ok = 0 →
    (t.out.err = 1 → s.inp.op = 0x30) ∧
    (t.out.err = 2 → s.inp.op ∈ ([0x11, 0x1A, 0x30] : List (BitVec 8))) ∧
    (t.out.err = 5 → s.inp.op = 0x30) ∧
    (t.out.err = 3 → s.inp.op ∈ ([0x07, 0x08, 0x09, 0x0A] : List (BitVec 8))) ∧
    (t.out.err = 4 → s.inp.op = 0x0B)
end

