-- ==== Sys2Proof/Laws/Ops.lean ====
section
/-! SUPPORT. What each shared operation can do, said once: the provers cite these and do not unfold. -/

namespace Sys2Proof

/-! ### Codes -/

@[simp] theorem Mode.ofCode_code (m : Mode) : Mode.ofCode m.code = some m := by
  cases m <;> decide

@[simp] theorem Mnemonic.ofCode_code (k : Mnemonic) : Mnemonic.ofCode k.code = some k := by
  cases k <;> decide

@[simp] theorem PrefixKind.ofCode_code (k : PrefixKind) : PrefixKind.ofCode k.code = some k := by
  cases k <;> decide

/-- The group of a kind's byte is the kind's group, whichever kind shares the byte. -/
@[simp] theorem prefixGroup_byte (k : PrefixKind) : prefixGroup k.byte = some k.group := by
  cases k <;> decide

theorem Mode.ofCode_eq_none (c : BitVec 3) : Mode.ofCode c = none ↔ 4 < c.toNat := by
  revert c; decide

theorem Mnemonic.ofCode_eq_none (c : BitVec 8) : Mnemonic.ofCode c = none ↔ 5 < c.toNat := by
  revert c; decide

theorem PrefixKind.ofCode_eq_none (c : BitVec 4) : PrefixKind.ofCode c = none ↔ 12 < c.toNat := by
  revert c; decide

/-- A code that names a mode is that mode's code. -/
theorem Mode.eq_code_of_ofCode (c : BitVec 3) (m : Mode) : Mode.ofCode c = some m → c = m.code := by
  revert c; cases m <;> decide

/-- A code that names a mnemonic is that mnemonic's code. -/
theorem Mnemonic.eq_code_of_ofCode (c : BitVec 8) (k : Mnemonic) (h : Mnemonic.ofCode c = some k) : c = k.code := by
  unfold Mnemonic.ofCode at h
  repeat' split at h
  all_goals cases h
  all_goals assumption

/-- The operand ports in use, for each count (R103). -/
@[simp] theorem usedOperands_zero (o0 o1 : Operand) : usedOperands 0 o0 o1 = some [] := rfl

@[simp] theorem usedOperands_one (o0 o1 : Operand) : usedOperands 1 o0 o1 = some [o0] := rfl

@[simp] theorem usedOperands_two (o0 o1 : Operand) : usedOperands 2 o0 o1 = some [o0, o1] := rfl

@[simp] theorem usedOperands_three (o0 o1 : Operand) : usedOperands 3 o0 o1 = none := rfl

/-- What a request that names a form says on its ports. -/
theorem formOf_eq_some (mode : BitVec 3) (mn : BitVec 8) (n : BitVec 2) (o0 o1 : Operand) (se : SignExtend)
    (dir : Direction) (i : Instr) (h : formOf mode mn n o0 o1 se dir = some i) :
    ∃ m k ops, mode = m.code ∧ mn = k.code ∧ usedOperands n o0 o1 = some ops ∧
      formOfOperands k m ops se dir = some i := by
  unfold formOf at h
  split at h
  · rename_i m k ops h1 h2 h3
    exact ⟨m, k, ops, Mode.eq_code_of_ofCode _ _ h1, Mnemonic.eq_code_of_ofCode _ _ h2, h3, h⟩
  · cases h

/-! ### Bits -/

/-- Reading back a bit of a byte one of whose bits was replaced. -/
theorem getLsbD_putBit (t : Byte) (p : Nat) (v : Bool) (j : Nat) (hj : j < 8) (hp : p < 8) :
    (putBit t p v).getLsbD j = if j = p then v else t.getLsbD j := by
  have hp' : p = 0 ∨ p = 1 ∨ p = 2 ∨ p = 3 ∨ p = 4 ∨ p = 5 ∨ p = 6 ∨ p = 7 := by omega
  have hj' : j = 0 ∨ j = 1 ∨ j = 2 ∨ j = 3 ∨ j = 4 ∨ j = 5 ∨ j = 6 ∨ j = 7 := by omega
  rcases hp' with rfl | rfl | rfl | rfl | rfl | rfl | rfl | rfl <;>
    rcases hj' with rfl | rfl | rfl | rfl | rfl | rfl | rfl | rfl <;> cases v <;>
    simp [putBit, bitAt]

/-- A digit in range names a bit of the byte. -/
theorem BitOrder.bitOf_lt (o : BitOrder) (d : Nat) (h : d < 8) : o.bitOf d < 8 := by
  cases o <;> simp [BitOrder.bitOf] <;> omega

/-- Distinct digits name distinct bits. -/
theorem BitOrder.bitOf_inj (o : BitOrder) (a b : Nat) (ha : a < 8) (hb : b < 8) :
    o.bitOf a = o.bitOf b ↔ a = b := by
  cases o
  · simp [BitOrder.bitOf]
  · simp only [BitOrder.bitOf]
    omega

/-- `bits_n` has `n` elements. -/
@[simp] theorem length_bitsOf {n : Nat} (v : BitVec n) : (bitsOf v).length = n := by
  simp [bitsOf]

/-- Serialisation to `k` bytes gives `k` bytes. -/
@[simp] theorem length_leBytes (k : Nat) {n : Nat} (v : BitVec n) : (leBytes k v).length = k := by
  simp [leBytes]

theorem leBytes_two {n : Nat} (v : BitVec n) : leBytes 2 v = [v.extractLsb' 0 8, v.extractLsb' 8 8] := rfl

theorem leBytes_four {n : Nat} (v : BitVec n) :
    leBytes 4 v = [v.extractLsb' 0 8, v.extractLsb' 8 8, v.extractLsb' 16 8, v.extractLsb' 24 8] := rfl

theorem leBytes_eight {n : Nat} (v : BitVec n) :
    leBytes 8 v = [v.extractLsb' 0 8, v.extractLsb' 8 8, v.extractLsb' 16 8, v.extractLsb' 24 8,
      v.extractLsb' 32 8, v.extractLsb' 40 8, v.extractLsb' 48 8, v.extractLsb' 56 8] := rfl

/-- One byte more, low byte first: the byte lies below the rest (R160). -/
theorem toNat_fromLe_cons (n : Nat) (b : Byte) (bs : ByteSeq) (hn : 8 ≤ n) (h : (fromLe n bs).toNat < 2 ^ (n - 8)) :
    (fromLe n (b :: bs)).toNat = b.toNat + 256 * (fromLe n bs).toNat := by
  have hb : b.toNat < 2 ^ n := lt_of_lt_of_le b.isLt (Nat.pow_le_pow_right (by decide) hn)
  have hm : (fromLe n bs).toNat * 2 ^ 8 < 2 ^ n := by
    have : 2 ^ n = 2 ^ (n - 8) * 2 ^ 8 := by rw [← Nat.pow_add]; congr 1; omega
    rw [this]; exact Nat.mul_lt_mul_of_pos_right h (by decide)
  rw [fromLe, BitVec.toNat_or, BitVec.toNat_setWidth, BitVec.toNat_shiftLeft, Nat.mod_eq_of_lt hb,
    Nat.shiftLeft_eq, Nat.mod_eq_of_lt hm, Nat.or_comm, ← Nat.shiftLeft_eq, ← Nat.shiftLeft_add_eq_or_of_lt b.isLt,
    Nat.shiftLeft_eq]
  omega

/-- A digit in range survives its 8-bit port (R167). -/
theorem toInt_ofInt_digit (d : Int) (h : digitFits d = true) : (BitVec.ofInt 8 d).toInt = d := by
  simp only [digitFits, decide_eq_true_eq] at h
  rw [BitVec.toInt_ofInt]
  rw [Int.bmod_def]; omega

/-- A value goes to its port and back at its declared width (R225). -/
@[simp] theorem Sized.ofPort_toPort (v : Sized) : Sized.ofPort v.cls v.toPort = v := by
  cases v <;> simp [Sized.cls, Sized.toPort, Sized.ofPort]

/-! ### Decoding emitted bytes -/

/-- A byte that is no legacy-prefix byte stops the skipping (R119). -/
theorem skipLegacy_of_none (b : Byte) (bs : ByteSeq) (h : prefixGroup b = none) :
    skipLegacy (b :: bs) = (false, b :: bs) := by
  rw [skipLegacy, h]; rfl

/-- A legacy-prefix byte is skipped (R119). -/
theorem skipLegacy_byte (k : PrefixKind) (bs : ByteSeq) :
    skipLegacy (k.byte :: bs) = (k.byte == 0x66 || (skipLegacy bs).1, (skipLegacy bs).2) := by
  rw [skipLegacy, prefixGroup_byte]; rfl

/-- A byte outside 0x40–0x4F is no REX byte in any mode (R119). -/
theorem takeRex_of_ne (m : Mode) (b : Byte) (bs : ByteSeq) (h : b &&& 0xF0 ≠ 0x40) :
    takeRex m (b :: bs) = .ok (false, b :: bs) := by
  rw [takeRex, if_neg (fun hh => h hh.2)]

/-- The one REX byte the rows use (R131). -/
theorem takeRex_rexW (bs : ByteSeq) : takeRex .bit64 (0x48 :: bs) = .ok (true, bs) := rfl

namespace Machine

/-- The fields of the ModR/M byte of a register–register row. -/
theorem rrByte_fields (a b : BitVec 3) :
    (rrByte a b).extractLsb' 6 2 = 3 ∧ (rrByte a b).extractLsb' 3 3 = a ∧ (rrByte a b).extractLsb' 0 3 = b := by
  revert a b; decide

/-- The fields of the ModR/M byte of a group 1 row of ADD. -/
theorem grpByte_add_fields (r : BitVec 3) :
    (grpByte 0xC0 r).extractLsb' 6 2 = 3 ∧ (grpByte 0xC0 r).extractLsb' 3 3 = 0 ∧
      (grpByte 0xC0 r).extractLsb' 0 3 = r := by
  revert r; decide

/-- The fields of the ModR/M byte of a group 1 row of ADC. -/
theorem grpByte_adc_fields (r : BitVec 3) :
    (grpByte 0xD0 r).extractLsb' 6 2 = 3 ∧ (grpByte 0xD0 r).extractLsb' 3 3 = 2 ∧
      (grpByte 0xD0 r).extractLsb' 0 3 = r := by
  revert r; decide

/-! ### Driving a result -/

/-- All that driving a result can do. -/
theorem drive_eq_next (r : Result) (s t : State) : drive r s = .next t ↔ t = { s with out := resultPorts r } := by
  simp [drive, eq_comm]

/-- All that raising an error can do: it is driving the error's result (R311, R320). -/
theorem raise_eq_next (e : ErrKind) (s t : State) : raise e s = .next t ↔ t = { s with out := errPorts e } :=
  drive_eq_next (.err e) s t

theorem drivesBytes_drive (bs : ByteSeq) (s : State) (h : bs.length ≤ 15) :
    DrivesBytes (drive (.ok (.bytes bs)) s) s bs := by
  refine ⟨_, rfl, rfl, rfl, rfl, ?_, rfl⟩
  show (BitVec.ofNat 4 bs.length).toNat = bs.length
  rw [BitVec.toNat_ofNat]; omega

theorem drivesBits_drive (b : BitSeq) (s : State) (h : b.length ≤ 15) :
    DrivesBits (drive (.ok (.bits b)) s) s b := by
  refine ⟨_, rfl, rfl, rfl, rfl, ?_, rfl⟩
  show (BitVec.ofNat 4 b.length).toNat = b.length
  rw [BitVec.toNat_ofNat]; omega

theorem drivesError_drive (e : ErrKind) (s : State) : DrivesError (drive (.err e) s) s e :=
  ⟨_, rfl, rfl, rfl, rfl, rfl, rfl, rfl, rfl, rfl⟩

/-- An outcome that drives bytes drives one byte sequence. -/
theorem drivesBytes_drive_iff (r : Result) (s : State) (bs : ByteSeq) :
    DrivesBytes (drive r s) s bs → r = .ok (.bytes bs) := by
  rintro ⟨t, ht, -, -, -, -, hb⟩
  rw [drive_eq_next] at ht
  subst ht
  cases r with
  | ok p => cases p <;> simp_all [resultPorts, payloadPorts]
  | err e => simp [resultPorts] at hb

/-- Every instruction drives one result, which depends on no part of the state but the unit's parameters; nothing else
happens (R9, R40, R310). -/
theorem exec_eq_drive (i : Instr) (p : Params) : ∃ r, ∀ s : State, s.params = p → exec i s = drive r s := by
  have h : ∃ r, exec i ⟨p, State.reset.inp, State.reset.out⟩ = drive r ⟨p, State.reset.inp, State.reset.out⟩ ∧
      ∀ inp out, exec i ⟨p, inp, out⟩ = drive r ⟨p, inp, out⟩ := by
    cases i <;> exact ⟨_, rfl, fun _ _ => rfl⟩
  obtain ⟨r, -, h⟩ := h
  exact ⟨r, by rintro ⟨_, inp, out⟩ rfl; exact h inp out⟩

/-! ### Prefix lists (R242, R243) -/

/-- Codes that name kinds give the kinds' bytes, in order. -/
@[simp] theorem kindBytes_map_code (ks : List PrefixKind) :
    kindBytes (ks.map PrefixKind.code) = some (ks.map PrefixKind.byte) := by
  induction ks with
  | nil => rfl
  | cons k ks ih => simp [kindBytes, ih]

/-- One code that names no kind, wherever it stands, is enough for an error. -/
theorem kindBytes_eq_none (cs : List (BitVec 4)) (h : ∃ c ∈ cs, 12 < c.toNat) : kindBytes cs = none := by
  induction cs with
  | nil => simp at h
  | cons c cs ih =>
    rw [kindBytes]
    by_cases hc : 12 < c.toNat
    · rw [(PrefixKind.ofCode_eq_none c).2 hc]
    · obtain ⟨d, hd, h12⟩ := h
      rcases List.mem_cons.1 hd with rfl | hd
      · exact absurd h12 hc
      · rw [ih ⟨d, hd, h12⟩]; cases PrefixKind.ofCode c <;> rfl

/-- As many bytes as codes. -/
theorem length_kindBytes (cs : List (BitVec 4)) (bs : ByteSeq) (h : kindBytes cs = some bs) :
    bs.length = cs.length := by
  induction cs generalizing bs with
  | nil => cases h; rfl
  | cons c cs ih =>
    unfold kindBytes at h
    split at h
    · rename_i hh; cases h; simp [ih _ hh]
    · cases h

/-! ### The dispatch of ENCODE (R260, R263) -/

/-- ENCODE with codes that name a mode, a mnemonic and a count. -/
theorem encodeResult_of_used (p : Params) (m : Mode) (k : Mnemonic) (n : BitVec 2) (o0 o1 : Operand)
    (se : SignExtend) (dir : Direction) (ops : List Operand) (h : usedOperands n o0 o1 = some ops) :
    encodeResult p m.code k.code n o0 o1 se dir =
      match k with
      | .adc => alu p .adc ops se dir m
      | .add => alu p .add ops se dir m
      | .aaa => ascii .aaa ops m
      | .aas => ascii .aas ops m
      | .aad => ascii .aad ops m
      | .aam => ascii .aam ops m := by
  simp only [encodeResult, Mode.ofCode_code, Mnemonic.ofCode_code, h]
  cases k <;> rfl

/-- ADC and ADD with a register and an immediate: the mode check, then `riEncode`. -/
theorem alu_register_immediate (p : Params) (k : Mnemonic) (d : Gpr) (v : Sized) (se : SignExtend) (dir : Direction)
    (m : Mode) :
    alu p k [.reg d, .imm v] se dir m =
      if d.cls = .w64 ∧ m ≠ .bit64 then .err .modeViolation else riEncode p k d v se m := by
  simp [alu, isReg64, shapeOf, isMem]

/-- ADC and ADD with two registers: the mode check, then `rrEncode`. -/
theorem alu_register_register (p : Params) (k : Mnemonic) (d r : Gpr) (se : SignExtend) (dir : Direction) (m : Mode) :
    alu p k [.reg d, .reg r] se dir m =
      if (d.cls = .w64 ∨ r.cls = .w64) ∧ m ≠ .bit64 then .err .modeViolation else rrEncode p k d r dir m := by
  simp [alu, isReg64, shapeOf, isMem]

/-- The accumulator opcode, in numbers. -/
theorem opAcc_eq (k : Mnemonic) (c : SizeClass) (h : k = .adc ∨ k = .add) :
    opAcc (aluNum k) (wBit c) = (if k = .adc then 0x14 else 0x04) + if c = .w8 then 0 else 1 := by
  rcases h with rfl | rfl <;> cases c <;> decide

/-- The group 1 opcode, in numbers. -/
theorem opGrp1_eq (w iw : SizeClass) (se : SignExtend) :
    opGrp1 (sField w iw se) (wBit w) =
      if w = .w8 then 0x80 else if iw = .w8 ∧ se = .signExtend then 0x83 else 0x81 := by
  cases w <;> cases iw <;> cases se <;> decide

/-- The register–register opcode, in numbers. -/
theorem opAluRr_eq (k : Mnemonic) (dir : Direction) (c : SizeClass) (h : k = .adc ∨ k = .add) :
    opAluRr (aluNum k) (dBit dir) (wBit c) =
      (if k = .adc then 0x10 else 0x00) + (if dir = .toReg then 2 else 0) + if c = .w8 then 0 else 1 := by
  rcases h with rfl | rfl <;> cases dir <;> cases c <;> decide

/-! ### The prefix selector (R46, R246–R248) -/

/-- Parameters a unit can be built with give every mode a default width of 16 or 32 bits. -/
theorem defaultOpsize_of_wf (p : Params) (m : Mode) (h : p.wf = true) :
    p.defaultOpsize m = .w16 ∨ p.defaultOpsize m = .w32 := by
  simp only [Params.wf, flips, Bool.and_eq_true, Bool.or_eq_true, beq_iff_eq] at h
  obtain ⟨⟨⟨⟨⟨h0, h1⟩, h2⟩, h3⟩, h4⟩, -⟩ := h
  cases m <;> assumption

/-- The prefixes of each operand-size class: at most one byte. -/
theorem prefixPart_eq (p : Params) (c : SizeClass) (m : Mode) :
    prefixPart p c m =
      match c with
      | .w8 => []
      | .w16 => if p.defaultOpsize m = .w32 then [0x66] else []
      | .w32 => if p.defaultOpsize m = .w16 then [0x66] else []
      | .w64 => [0x48] := by
  cases c <;> cases h : p.defaultOpsize m <;> simp only [prefixPart, needs66, h] <;> decide

/-! ### The forms of the opcode table -/

/-- All that a form of ADC or ADD can answer. -/
theorem aluForm_eq (p : Params) (c : SizeClass) (m : Mode) (body : ByteSeq) :
    aluForm p c m body =
      if c = .w64 ∧ m ≠ .bit64 then .err .modeViolation else .ok (.bytes (prefixPart p c m ++ body)) :=
  rfl

/-- A group 1 row with a register that is not the accumulator. -/
theorem grpFullBody_of_ne (short op base : Byte) (r : BitVec 3) (imm : ByteSeq) (h : r ≠ 0) :
    grpFullBody short op base r imm = op :: grpByte base r :: imm :=
  if_neg h

/-- All that a form of the ASCII-adjust family can answer. -/
theorem asciiForm_eq (m : Mode) (body : ByteSeq) :
    asciiForm m body = if m = .bit64 then .err .modeViolation else .ok (.bytes body) :=
  rfl

/-- The ModR/M packer with mod = 11 is the table's `C0 + 8·reg + rm`. -/
theorem modrm_registers (reg rm : BitVec 3) : modrm [true, true] (bitsOf reg) (bitsOf rm) = rrByte reg rm := by
  revert reg rm; decide

theorem modrm_adc (r : BitVec 3) : modrm [true, true] (aluNum .adc) (bitsOf r) = grpByte 0xD0 r := by
  revert r; decide

theorem modrm_add (r : BitVec 3) : modrm [true, true] (aluNum .add) (bitsOf r) = grpByte 0xC0 r := by
  revert r; decide

end Machine

end Sys2Proof
end

