-- ==== Sys2Proof/Laws/PerInstr.lean ====
section
/-! SUPPORT. A statement about every instruction, one lemma per constructor of `Instr`. -/

namespace Sys2Proof.Laws.EncodeFits

/-- The request of a well-formed instruction fits the input ports (R9, R45). -/
def Statement (i : Instr) : Prop :=
  ∀ p : Params, i.wf p = true → (Sys2Proof.encode p i).wf p = true

/-- A request that leaves the bit list and the prefix slots idle fits its ports. -/
theorem wf_of_slots (p : Params) (r : Request) (hb : r.bseq = []) (hk : r.pkinds = (Request.idle p).pkinds) :
    r.wf p = true := by
  simp [Request.wf, hb, hk, Request.idle]

theorem leSer16 (w : BitVec 16) : Statement (.leSer16 w) :=
  fun p _ => wf_of_slots p _ rfl rfl

theorem leSer32 (w : BitVec 32) : Statement (.leSer32 w) :=
  fun p _ => wf_of_slots p _ rfl rfl

theorem leSer64 (w : BitVec 64) : Statement (.leSer64 w) :=
  fun p _ => wf_of_slots p _ rfl rfl

theorem leDes16 (b0 b1 : Byte) : Statement (.leDes16 b0 b1) :=
  fun p _ => wf_of_slots p _ rfl rfl

theorem leDes32 (b0 b1 b2 b3 : Byte) : Statement (.leDes32 b0 b1 b2 b3) :=
  fun p _ => wf_of_slots p _ rfl rfl

theorem leDes64 (bs : Bytes8) : Statement (.leDes64 bs) :=
  fun p _ => wf_of_slots p _ rfl rfl

theorem getbit (b : Byte) (d : Int) (o : BitOrder) : Statement (.getbit b d o) :=
  fun p _ => wf_of_slots p _ rfl rfl

theorem setbit (b : Byte) (d : Int) (v : BitVec 1) (o : BitOrder) : Statement (.setbit b d v o) :=
  fun p _ => wf_of_slots p _ rfl rfl

theorem copybit (src : Byte) (sd : Int) (dst : Byte) (dd : Int) (o : BitOrder) :
    Statement (.copybit src sd dst dd o) :=
  fun p _ => wf_of_slots p _ rfl rfl

theorem copybits (src : Byte) (sd : Int) (dst : Byte) (dd : Int) (n : Int) (o : BitOrder) :
    Statement (.copybits src sd dst dd n o) :=
  fun p _ => wf_of_slots p _ rfl rfl

theorem packbits (bs : BitSeq) (o : BitOrder) : Statement (.packbits bs o) := by
  intro p h
  exact Bool.and_eq_true_iff.2 ⟨h, by simp [Sys2Proof.encode, Request.idle]⟩

theorem unpackbits (b : Byte) (o : BitOrder) : Statement (.unpackbits b o) :=
  fun p _ => wf_of_slots p _ rfl rfl

theorem encReg3 (r : RegPort) : Statement (.encReg3 r) :=
  fun p _ => wf_of_slots p _ rfl rfl

theorem encSreg2 (r : RegPort) : Statement (.encSreg2 r) :=
  fun p _ => wf_of_slots p _ rfl rfl

theorem opsizeOf (r : RegPort) : Statement (.opsizeOf r) :=
  fun p _ => wf_of_slots p _ rfl rfl

theorem wBit (c : SizeClass) : Statement (.wBit c) :=
  fun p _ => wf_of_slots p _ rfl rfl

theorem wBitReg (r : RegPort) : Statement (.wBitReg r) :=
  fun p _ => wf_of_slots p _ rfl rfl

theorem sBit (se : SignExtend) (c : SizeClass) : Statement (.sBit se c) :=
  fun p _ => wf_of_slots p _ rfl rfl

theorem dBit (dir : Direction) : Statement (.dBit dir) :=
  fun p _ => wf_of_slots p _ rfl rfl

theorem tttn (cond : BitVec 4) : Statement (.tttn cond) :=
  fun p _ => wf_of_slots p _ rfl rfl

theorem asmModrm (mod : BitVec 2) (regf rm : BitVec 3) : Statement (.asmModrm mod regf rm) :=
  fun p _ => wf_of_slots p _ rfl rfl

theorem asmSib (scale : BitVec 2) (index base : BitVec 3) : Statement (.asmSib scale index base) :=
  fun p _ => wf_of_slots p _ rfl rfl

theorem asmDisp (d : Sized) : Statement (.asmDisp d) :=
  fun p _ => wf_of_slots p _ rfl rfl

theorem buildRex (w r x b : BitVec 1) : Statement (.buildRex w r x b) :=
  fun p _ => wf_of_slots p _ rfl rfl

theorem lpfxEmit (npk : BitVec 3) (kinds : List (BitVec 4)) : Statement (.lpfxEmit npk kinds) := by
  intro p h
  simp only [Instr.wf, decide_eq_true_eq] at h
  simp [Sys2Proof.encode, Request.wf, Request.idle, kindSlots]
  omega

theorem lpfxRecog (b : Byte) : Statement (.lpfxRecog b) :=
  fun p _ => wf_of_slots p _ rfl rfl

theorem encode (mode : BitVec 3) (mn : BitVec 8) (nopnd : BitVec 2) (o0 o1 : Operand) (se : SignExtend)
    (dir : Direction) : Statement (.encode mode mn nopnd o0 o1 se dir) :=
  fun p _ => wf_of_slots p _ rfl rfl

theorem addAlImm8 (m : Mode) (v : BitVec 8) : Statement (.addAlImm8 m v) :=
  fun p _ => wf_of_slots p _ rfl rfl

theorem addAxImm16 (m : Mode) (v : BitVec 16) : Statement (.addAxImm16 m v) :=
  fun p _ => wf_of_slots p _ rfl rfl

theorem addEaxImm32 (m : Mode) (v : BitVec 32) : Statement (.addEaxImm32 m v) :=
  fun p _ => wf_of_slots p _ rfl rfl

theorem addRaxImm32 (m : Mode) (v : BitVec 32) : Statement (.addRaxImm32 m v) :=
  fun p _ => wf_of_slots p _ rfl rfl

theorem addR8Imm8 (m : Mode) (r : BitVec 3) (v : BitVec 8) : Statement (.addR8Imm8 m r v) :=
  fun p _ => wf_of_slots p _ rfl rfl

theorem addR16Imm16 (m : Mode) (r : BitVec 3) (v : BitVec 16) : Statement (.addR16Imm16 m r v) :=
  fun p _ => wf_of_slots p _ rfl rfl

theorem addR32Imm32 (m : Mode) (r : BitVec 3) (v : BitVec 32) : Statement (.addR32Imm32 m r v) :=
  fun p _ => wf_of_slots p _ rfl rfl

theorem addR64Imm32 (m : Mode) (r : BitVec 3) (v : BitVec 32) : Statement (.addR64Imm32 m r v) :=
  fun p _ => wf_of_slots p _ rfl rfl

theorem addR16Imm8sx (m : Mode) (r : BitVec 3) (v : BitVec 8) : Statement (.addR16Imm8sx m r v) :=
  fun p _ => wf_of_slots p _ rfl rfl

theorem addR32Imm8sx (m : Mode) (r : BitVec 3) (v : BitVec 8) : Statement (.addR32Imm8sx m r v) :=
  fun p _ => wf_of_slots p _ rfl rfl

theorem addR64Imm8sx (m : Mode) (r : BitVec 3) (v : BitVec 8) : Statement (.addR64Imm8sx m r v) :=
  fun p _ => wf_of_slots p _ rfl rfl

theorem addRm8R8 (m : Mode) (dst src : BitVec 3) : Statement (.addRm8R8 m dst src) :=
  fun p _ => wf_of_slots p _ rfl rfl

theorem addRm16R16 (m : Mode) (dst src : BitVec 3) : Statement (.addRm16R16 m dst src) :=
  fun p _ => wf_of_slots p _ rfl rfl

theorem addRm32R32 (m : Mode) (dst src : BitVec 3) : Statement (.addRm32R32 m dst src) :=
  fun p _ => wf_of_slots p _ rfl rfl

theorem addRm64R64 (m : Mode) (dst src : BitVec 3) : Statement (.addRm64R64 m dst src) :=
  fun p _ => wf_of_slots p _ rfl rfl

theorem addR8Rm8 (m : Mode) (dst src : BitVec 3) : Statement (.addR8Rm8 m dst src) :=
  fun p _ => wf_of_slots p _ rfl rfl

theorem addR16Rm16 (m : Mode) (dst src : BitVec 3) : Statement (.addR16Rm16 m dst src) :=
  fun p _ => wf_of_slots p _ rfl rfl

theorem addR32Rm32 (m : Mode) (dst src : BitVec 3) : Statement (.addR32Rm32 m dst src) :=
  fun p _ => wf_of_slots p _ rfl rfl

theorem addR64Rm64 (m : Mode) (dst src : BitVec 3) : Statement (.addR64Rm64 m dst src) :=
  fun p _ => wf_of_slots p _ rfl rfl

theorem adcAlImm8 (m : Mode) (v : BitVec 8) : Statement (.adcAlImm8 m v) :=
  fun p _ => wf_of_slots p _ rfl rfl

theorem adcAxImm16 (m : Mode) (v : BitVec 16) : Statement (.adcAxImm16 m v) :=
  fun p _ => wf_of_slots p _ rfl rfl

theorem adcEaxImm32 (m : Mode) (v : BitVec 32) : Statement (.adcEaxImm32 m v) :=
  fun p _ => wf_of_slots p _ rfl rfl

theorem adcRaxImm32 (m : Mode) (v : BitVec 32) : Statement (.adcRaxImm32 m v) :=
  fun p _ => wf_of_slots p _ rfl rfl

theorem adcR8Imm8 (m : Mode) (r : BitVec 3) (v : BitVec 8) : Statement (.adcR8Imm8 m r v) :=
  fun p _ => wf_of_slots p _ rfl rfl

theorem adcR16Imm16 (m : Mode) (r : BitVec 3) (v : BitVec 16) : Statement (.adcR16Imm16 m r v) :=
  fun p _ => wf_of_slots p _ rfl rfl

theorem adcR32Imm32 (m : Mode) (r : BitVec 3) (v : BitVec 32) : Statement (.adcR32Imm32 m r v) :=
  fun p _ => wf_of_slots p _ rfl rfl

theorem adcR64Imm32 (m : Mode) (r : BitVec 3) (v : BitVec 32) : Statement (.adcR64Imm32 m r v) :=
  fun p _ => wf_of_slots p _ rfl rfl

theorem adcR16Imm8sx (m : Mode) (r : BitVec 3) (v : BitVec 8) : Statement (.adcR16Imm8sx m r v) :=
  fun p _ => wf_of_slots p _ rfl rfl

theorem adcR32Imm8sx (m : Mode) (r : BitVec 3) (v : BitVec 8) : Statement (.adcR32Imm8sx m r v) :=
  fun p _ => wf_of_slots p _ rfl rfl

theorem adcR64Imm8sx (m : Mode) (r : BitVec 3) (v : BitVec 8) : Statement (.adcR64Imm8sx m r v) :=
  fun p _ => wf_of_slots p _ rfl rfl

theorem adcRm8R8 (m : Mode) (dst src : BitVec 3) : Statement (.adcRm8R8 m dst src) :=
  fun p _ => wf_of_slots p _ rfl rfl

theorem adcRm16R16 (m : Mode) (dst src : BitVec 3) : Statement (.adcRm16R16 m dst src) :=
  fun p _ => wf_of_slots p _ rfl rfl

theorem adcRm32R32 (m : Mode) (dst src : BitVec 3) : Statement (.adcRm32R32 m dst src) :=
  fun p _ => wf_of_slots p _ rfl rfl

theorem adcRm64R64 (m : Mode) (dst src : BitVec 3) : Statement (.adcRm64R64 m dst src) :=
  fun p _ => wf_of_slots p _ rfl rfl

theorem adcR8Rm8 (m : Mode) (dst src : BitVec 3) : Statement (.adcR8Rm8 m dst src) :=
  fun p _ => wf_of_slots p _ rfl rfl

theorem adcR16Rm16 (m : Mode) (dst src : BitVec 3) : Statement (.adcR16Rm16 m dst src) :=
  fun p _ => wf_of_slots p _ rfl rfl

theorem adcR32Rm32 (m : Mode) (dst src : BitVec 3) : Statement (.adcR32Rm32 m dst src) :=
  fun p _ => wf_of_slots p _ rfl rfl

theorem adcR64Rm64 (m : Mode) (dst src : BitVec 3) : Statement (.adcR64Rm64 m dst src) :=
  fun p _ => wf_of_slots p _ rfl rfl

theorem aaa (m : Mode) : Statement (.aaa m) :=
  fun p _ => wf_of_slots p _ rfl rfl

theorem aas (m : Mode) : Statement (.aas m) :=
  fun p _ => wf_of_slots p _ rfl rfl

theorem aadImm8 (m : Mode) (base : Byte) : Statement (.aadImm8 m base) :=
  fun p _ => wf_of_slots p _ rfl rfl

theorem aamImm8 (m : Mode) (base : Byte) : Statement (.aamImm8 m base) :=
  fun p _ => wf_of_slots p _ rfl rfl

end Sys2Proof.Laws.EncodeFits
end

