-- ==== Sys2Proof/Tests/Slice0.lean ====
section
/-! SUPPORT. Tests. Expected values come from spec/95_test_vectors.md where a row there is cited, else they are worked
out by hand from the rule cited. -/

open Sys2Proof Sys2Proof.Machine

namespace Sys2Proof.Tests

/-- The outputs after one step on a request, with whether the unit took a step at all. -/
def answer (r : Request) : Option OutPorts :=
  match step (present r State.reset) with
  | .next t => some t.out
  | .fault _ => none
  | .refused _ => none

/-- The bytes a request gives, if it gives bytes. -/
def bytesFor (r : Request) : Option ByteSeq := (answer r).bind (·.bytesOut)

/-- The bits a request gives, if it gives bits. -/
def bitsFor (r : Request) : Option (List Nat) :=
  (answer r).bind fun o => o.bitsOut.map fun s => s.map Bool.toNat

/-- The word a request gives, if it gives a word. -/
def wordFor (r : Request) : Option (BitVec 64) := (answer r).bind (·.wordOut)

/-- The error code of a request, if it fails; the length and the payload must be absent. -/
def errFor (r : Request) : Option Nat :=
  (answer r).bind fun o =>
    if o.ok = 0 ∧ o.len = 0 ∧ o.bytesOut = none ∧ o.bitsOut = none ∧ o.wordOut = none then some o.err.toNat else none

/-- The instruction a request is. -/
def reads (r : Request) : Option Instr := (decodeRequest r).toOption

/-- A request with an operation selector and every other port idle. -/
def op (c : BitVec 8) : Request := { Request.idle Config.params with op := c }

/-- A form, both ways: presented on the ports it gives the bytes, and the bytes in its mode are read as it. -/
def bothWays (m : Mode) (i : Instr) (bs : ByteSeq) : Bool :=
  reads (encode Config.params i) == some i && bytesFor (encode Config.params i) == some bs &&
    (decodeBytes Config.params m bs).toOption == some (i, [])

/-- An ENCODE request, port by port. -/
def enc (mode : BitVec 3) (mn : BitVec 8) (ops : List Operand) (se : SignExtend := .noSignExtend)
    (dir : Direction := .toRM) : Request :=
  { op 0x30 with
    mode := mode, mn := mn, nopnd := BitVec.ofNat 2 ops.length, opnd0 := ops.getD 0 .absent,
    opnd1 := ops.getD 1 .absent, se := se, dir := dir }

/-- A single-bit request, port by port. -/
def digits (c : BitVec 8) (b0 : Byte) (d0 : BitVec 8) (b1 : Byte := 0) (d1 : BitVec 8 := 0) (n : BitVec 8 := 0)
    (o : BitOrder := .lsbFirst) (v : BitVec 1 := 0) : Request :=
  { op c with byte0 := b0, digit0 := d0, byte1 := b1, digit1 := d1, count := n, order := o, bit := v }

/-- A prefix list on the ports. -/
def kinds (npk : BitVec 3) (ks : List (BitVec 4)) : Request :=
  { op 0x21 with npk := npk, pkinds := kindSlots Config.params ks }

/-! ### Well-formedness: one ill-formed term for each check -/

theorem test_wf_getbit_digit : Instr.wf Config.params (.getbit 0 128 .lsbFirst) = false ∧
    Instr.wf Config.params (.getbit 0 (-129) .lsbFirst) = false ∧
    Instr.wf Config.params (.getbit 0 (-128) .lsbFirst) = true := by decide

theorem test_wf_setbit_digit : Instr.wf Config.params (.setbit 0 128 0 .lsbFirst) = false := by decide

theorem test_wf_copybit_digits : Instr.wf Config.params (.copybit 0 128 0 0 .lsbFirst) = false ∧
    Instr.wf Config.params (.copybit 0 0 0 (-129) .lsbFirst) = false := by decide

theorem test_wf_copybits_digits_and_count : Instr.wf Config.params (.copybits 0 (-129) 0 0 1 .lsbFirst) = false ∧
    Instr.wf Config.params (.copybits 0 0 0 128 1 .lsbFirst) = false ∧
    Instr.wf Config.params (.copybits 0 0 0 0 128 .lsbFirst) = false := by
  decide

theorem test_wf_packbits_length : Instr.wf Config.params (.packbits (List.replicate 16 true) .lsbFirst) = false ∧
    Instr.wf Config.params (.packbits (List.replicate 15 true) .lsbFirst) = true := by decide

theorem test_wf_lpfx_slots : Instr.wf Config.params (.lpfxEmit 2 [0]) = false ∧
    Instr.wf Config.params (.lpfxEmit 1 [0, 0]) = false ∧
    Instr.wf Config.params (.lpfxEmit 7 [0, 0, 0, 0]) = true := by decide

theorem test_wf_encode_names_no_row :
    Instr.wf Config.params (.encode 0 2 0 .absent .absent .noSignExtend .toRM) = false ∧
    Instr.wf Config.params (.encode 0 9 0 .absent .absent .noSignExtend .toRM) = true := by decide

theorem test_wf_group_rows_have_no_accumulator :
    ([.addR8Imm8 .bit64 0 0, .addR16Imm16 .bit64 0 0, .addR32Imm32 .bit64 0 0, .addR64Imm32 .bit64 0 0,
      .adcR8Imm8 .bit64 0 0, .adcR16Imm16 .bit64 0 0, .adcR32Imm32 .bit64 0 0,
      .adcR64Imm32 .bit64 0 0] : List Instr).all (fun i => !i.wf Config.params) = true := by decide

theorem test_wf_request_ports : Request.wf Config.params { op 0x0B with bseq := List.replicate 16 true } = false ∧
    Request.wf Config.params { op 0x21 with pkinds := [0, 0, 0] } = false ∧
    Request.wf Config.params (op 0x0B) = true := by decide

theorem test_wf_params : Params.wf Config.params = true ∧ Params.wf { outMax := 7 } = false ∧
    Params.wf { outMax := 16 } = false ∧ Params.wf { modeWidths := { protectedMode := .w8 } } = false ∧
    Params.wf { modeWidths := { realAddress := .w64 } } = false ∧
    Params.wf { modeWidths := { systemManagement := .w8 } } = false ∧
    Params.wf { modeWidths := { compatibility := .w64 } } = false ∧
    Params.wf { modeWidths := { bit64 := .w64 } } = false := by decide

/-! ### Decoding: every operation of R101 from its ports -/

theorem test_decode_leSer16 : reads { op 0x01 with word := 0xFFFF1234 } = some (.leSer16 0x1234) := by decide

theorem test_decode_leSer32 : reads { op 0x02 with word := 0xFF12345678 } = some (.leSer32 0x12345678) := by decide

theorem test_decode_leSer64 : reads { op 0x03 with word := 0x0102030405060708 }
    = some (.leSer64 0x0102030405060708) := by decide

theorem test_decode_leDes16 : reads { op 0x04 with bytesIn := ⟨0x34, 0x12, 3, 4, 5, 6, 7, 8⟩ }
    = some (.leDes16 0x34 0x12) := by decide

theorem test_decode_leDes32 : reads { op 0x05 with bytesIn := ⟨1, 2, 3, 4, 5, 6, 7, 8⟩ }
    = some (.leDes32 1 2 3 4) := by decide

theorem test_decode_leDes64 : reads { op 0x06 with bytesIn := ⟨1, 2, 3, 4, 5, 6, 7, 8⟩ }
    = some (.leDes64 ⟨1, 2, 3, 4, 5, 6, 7, 8⟩) := by decide

theorem test_decode_getbit : reads (digits 0x07 0x48 0xFF (o := .msbFirst))
    = some (.getbit 0x48 (-1) .msbFirst) := by decide

theorem test_decode_setbit : reads (digits 0x08 0x40 0x03 (v := 1)) = some (.setbit 0x40 3 1 .lsbFirst) := by decide

theorem test_decode_copybit : reads (digits 0x09 0x01 0x00 0x02 0x80)
    = some (.copybit 0x01 0 0x02 (-128) .lsbFirst) := by decide

theorem test_decode_copybits : reads (digits 0x0A 0xB0 0x04 0x0C 0x01 0x7F)
    = some (.copybits 0xB0 4 0x0C 1 127 .lsbFirst) := by decide

theorem test_decode_packbits : reads { op 0x0B with bseq := [true, false], order := .msbFirst }
    = some (.packbits [true, false] .msbFirst) := by decide

theorem test_decode_unpackbits : reads { op 0x0C with byte0 := 0x48, order := .msbFirst }
    = some (.unpackbits 0x48 .msbFirst) := by decide

theorem test_decode_encReg3 : reads { op 0x10 with reg := .sreg 5 } = some (.encReg3 (.sreg 5)) := by decide

theorem test_decode_encSreg2 : reads { op 0x11 with reg := .sreg 2 } = some (.encSreg2 (.sreg 2)) := by decide

theorem test_decode_opsizeOf : reads { op 0x12 with reg := .gpr ⟨4, .w8⟩ }
    = some (.opsizeOf (.gpr ⟨4, .w8⟩)) := by decide

theorem test_decode_wBit : reads { op 0x13 with cls := .w64 } = some (.wBit .w64) := by decide

theorem test_decode_wBitReg : reads { op 0x14 with reg := .gpr ⟨1, .w8⟩ }
    = some (.wBitReg (.gpr ⟨1, .w8⟩)) := by decide

theorem test_decode_sBit : reads { op 0x15 with se := .signExtend, cls := .w16 }
    = some (.sBit .signExtend .w16) := by decide

theorem test_decode_dBit : reads { op 0x16 with dir := .toReg } = some (.dBit .toReg) := by decide

theorem test_decode_tttn : reads { op 0x17 with cond := 5 } = some (.tttn 5) := by decide

theorem test_decode_asmModrm : reads { op 0x18 with mod := 3, regf := 2, rm := 1 }
    = some (.asmModrm 3 2 1) := by decide

theorem test_decode_asmSib : reads { op 0x19 with scale := 2, index := 1, base := 5 }
    = some (.asmSib 2 1 5) := by decide

theorem test_decode_asmDisp : reads { op 0x1A with cls := .w16, disp := 0xFF1234 }
    = some (.asmDisp (.b16 0x1234)) := by decide

theorem test_decode_buildRex : reads { op 0x20 with rexW := 1, rexX := 1 } = some (.buildRex 1 0 1 0) := by decide

theorem test_decode_lpfxEmit : reads { op 0x21 with npk := 2, pkinds := [11, 2, 13, 0] }
    = some (.lpfxEmit 2 [11, 2]) := by decide

theorem test_decode_lpfxRecog : reads { op 0x22 with byte0 := 0x66 } = some (.lpfxRecog 0x66) := by decide

theorem test_decode_encode :
    reads { op 0x30 with mode := 5, mn := 1, nopnd := 1, opnd0 := .reg ⟨3, .w16⟩, se := .signExtend, dir := .toReg }
    = some (.encode 5 1 1 (.reg ⟨3, .w16⟩) .absent .signExtend .toReg) := by decide

theorem test_decode_unlisted_op : ([0x00, 0x0D, 0x0F, 0x1B, 0x23, 0x31, 0xFF] : List (BitVec 8)).all (fun c =>
    (reads (op c)).isNone && errFor (op c) == some 6) = true := by decide

/-! ### Forms of ENCODE: the bytes of each row, both ways -/

/-- Test vectors, section 2.6. -/
theorem test_addAlImm8 : bothWays .protectedMode (.addAlImm8 .protectedMode 0x01) [0x04, 0x01] = true := by decide

/-- Test vectors, section 2.6. -/
theorem test_addAxImm16 : bothWays .realAddress (.addAxImm16 .realAddress 0xFFFF) [0x05, 0xFF, 0xFF]
    = true := by decide

/-- Test vectors, section 2.6. -/
theorem test_addEaxImm32 :
    bothWays .protectedMode (.addEaxImm32 .protectedMode 0x12345678) [0x05, 0x78, 0x56, 0x34, 0x12]
    = true := by decide

/-- By hand from R120. -/
theorem test_addRaxImm32 : bothWays .bit64 (.addRaxImm32 .bit64 1) [0x48, 0x05, 0x01, 0x00, 0x00, 0x00]
    = true := by decide

/-- Test vectors, section 2.6. -/
theorem test_addR8Imm8 : bothWays .realAddress (.addR8Imm8 .realAddress 7 0x7F) [0x80, 0xC7, 0x7F] = true := by decide

/-- By hand from R120. -/
theorem test_addR16Imm16 :
    bothWays .protectedMode (.addR16Imm16 .protectedMode 2 0xBEEF) [0x66, 0x81, 0xC2, 0xEF, 0xBE]
    = true := by decide

/-- By hand from R120. -/
theorem test_addR32Imm32 :
    bothWays .protectedMode (.addR32Imm32 .protectedMode 1 0x1000) [0x81, 0xC1, 0x00, 0x10, 0x00, 0x00]
    = true := by decide

/-- By hand from R120. -/
theorem test_addR64Imm32 :
    bothWays .bit64 (.addR64Imm32 .bit64 3 0xFFFFFFFF) [0x48, 0x81, 0xC3, 0xFF, 0xFF, 0xFF, 0xFF]
    = true := by decide

/-- By hand from R120. -/
theorem test_addR16Imm8sx : bothWays .protectedMode (.addR16Imm8sx .protectedMode 0 0xFF) [0x66, 0x83, 0xC0, 0xFF]
    = true := by decide

/-- Test vectors, section 2.6. -/
theorem test_addR32Imm8sx : bothWays .protectedMode (.addR32Imm8sx .protectedMode 4 0xF0) [0x83, 0xC4, 0xF0]
    = true := by decide

/-- Test vectors, section 2.6. -/
theorem test_addR64Imm8sx : bothWays .bit64 (.addR64Imm8sx .bit64 0 0x01) [0x48, 0x83, 0xC0, 0x01] = true := by decide

/-- Test vector P2. -/
theorem test_addRm8R8 : bothWays .realAddress (.addRm8R8 .realAddress 0 3) [0x00, 0xD8] = true := by decide

/-- By hand from R120. -/
theorem test_addRm16R16 : bothWays .protectedMode (.addRm16R16 .protectedMode 0 3) [0x66, 0x01, 0xD8]
    = true := by decide

/-- Test vectors, section 2.6. -/
theorem test_addRm32R32 : bothWays .protectedMode (.addRm32R32 .protectedMode 1 2) [0x01, 0xD1] = true := by decide

/-- Test vectors, section 2.6. -/
theorem test_addRm64R64 : bothWays .bit64 (.addRm64R64 .bit64 7 4) [0x48, 0x01, 0xE7] = true := by decide

/-- By hand from R120. -/
theorem test_addR8Rm8 : bothWays .protectedMode (.addR8Rm8 .protectedMode 0 3) [0x02, 0xC3] = true := by decide

/-- By hand from R120. -/
theorem test_addR16Rm16 : bothWays .realAddress (.addR16Rm16 .realAddress 6 5) [0x03, 0xF5] = true := by decide

/-- By hand from R120. -/
theorem test_addR32Rm32 : bothWays .realAddress (.addR32Rm32 .realAddress 0 3) [0x66, 0x03, 0xC3] = true := by decide

/-- By hand from R120. -/
theorem test_addR64Rm64 : bothWays .bit64 (.addR64Rm64 .bit64 0 3) [0x48, 0x03, 0xC3] = true := by decide

/-- Test vector S1. -/
theorem test_adcAlImm8 : bothWays .protectedMode (.adcAlImm8 .protectedMode 0x12) [0x14, 0x12] = true := by decide

/-- Test vector S9. -/
theorem test_adcAxImm16 : bothWays .protectedMode (.adcAxImm16 .protectedMode 0x1234) [0x66, 0x15, 0x34, 0x12]
    = true := by decide

/-- Test vectors, section 2.6. -/
theorem test_adcEaxImm32 :
    bothWays .realAddress (.adcEaxImm32 .realAddress 0x12345678) [0x66, 0x15, 0x78, 0x56, 0x34, 0x12]
    = true := by decide

/-- Test vector S11. -/
theorem test_adcRaxImm32 : bothWays .bit64 (.adcRaxImm32 .bit64 0x12345678) [0x48, 0x15, 0x78, 0x56, 0x34, 0x12]
    = true := by decide

/-- Test vectors, section 2.6. -/
theorem test_adcR8Imm8 : bothWays .protectedMode (.adcR8Imm8 .protectedMode 4 0x05) [0x80, 0xD4, 0x05]
    = true := by decide

/-- Test vectors, section 2.6. -/
theorem test_adcR16Imm16 :
    bothWays .protectedMode (.adcR16Imm16 .protectedMode 2 0xBEEF) [0x66, 0x81, 0xD2, 0xEF, 0xBE]
    = true := by decide

/-- Test vectors, section 2.6. -/
theorem test_adcR32Imm32 :
    bothWays .protectedMode (.adcR32Imm32 .protectedMode 1 0x1000) [0x81, 0xD1, 0x00, 0x10, 0x00, 0x00]
    = true := by decide

/-- Test vectors, section 2.6. -/
theorem test_adcR64Imm32 :
    bothWays .bit64 (.adcR64Imm32 .bit64 3 0xFFFFFFFF) [0x48, 0x81, 0xD3, 0xFF, 0xFF, 0xFF, 0xFF]
    = true := by decide

/-- Test vectors, section 2.6. -/
theorem test_adcR16Imm8sx : bothWays .protectedMode (.adcR16Imm8sx .protectedMode 0 0xFF) [0x66, 0x83, 0xD0, 0xFF]
    = true := by decide

/-- Test vectors, section 2.6. -/
theorem test_adcR32Imm8sx : bothWays .protectedMode (.adcR32Imm8sx .protectedMode 3 0x01) [0x83, 0xD3, 0x01]
    = true := by decide

/-- Test vectors, section 2.6. -/
theorem test_adcR64Imm8sx : bothWays .bit64 (.adcR64Imm8sx .bit64 2 0x00) [0x48, 0x83, 0xD2, 0x00] = true := by decide

/-- Test vectors, section 2.6. -/
theorem test_adcRm8R8 : bothWays .bit64 (.adcRm8R8 .bit64 0 3) [0x10, 0xD8] = true := by decide

/-- Test vectors, section 2.6. -/
theorem test_adcRm16R16 : bothWays .protectedMode (.adcRm16R16 .protectedMode 0 3) [0x66, 0x11, 0xD8]
    = true := by decide

/-- Test vectors, section 2.6. -/
theorem test_adcRm32R32 : bothWays .protectedMode (.adcRm32R32 .protectedMode 0 3) [0x11, 0xD8] = true := by decide

/-- Test vectors, section 2.6. -/
theorem test_adcRm64R64 : bothWays .bit64 (.adcRm64R64 .bit64 0 3) [0x48, 0x11, 0xD8] = true := by decide

/-- By hand from R120. -/
theorem test_adcR8Rm8 : bothWays .protectedMode (.adcR8Rm8 .protectedMode 0 3) [0x12, 0xC3] = true := by decide

/-- By hand from R120. -/
theorem test_adcR16Rm16 : bothWays .systemManagement (.adcR16Rm16 .systemManagement 0 3) [0x13, 0xC3]
    = true := by decide

/-- Test vectors, section 2.6. -/
theorem test_adcR32Rm32 : bothWays .protectedMode (.adcR32Rm32 .protectedMode 0 3) [0x13, 0xC3] = true := by decide

/-- By hand from R120. -/
theorem test_adcR64Rm64 : bothWays .bit64 (.adcR64Rm64 .bit64 0 3) [0x48, 0x13, 0xC3] = true := by decide

/-- Test vectors, section 2.7. -/
theorem test_aaa : bothWays .realAddress (.aaa .realAddress) [0x37] = true := by decide

/-- Test vectors, section 2.7. -/
theorem test_aas : bothWays .protectedMode (.aas .protectedMode) [0x3F] = true := by decide

/-- Test vectors, section 2.7. -/
theorem test_aadImm8 : bothWays .systemManagement (.aadImm8 .systemManagement 0x0A) [0xD5, 0x0A] = true := by decide

/-- Test vectors, section 2.7. -/
theorem test_aamImm8 : bothWays .compatibility (.aamImm8 .compatibility 0x10) [0xD4, 0x10] = true := by decide

/-- R267: a group 1 row named with the accumulator is emitted in the short form. -/
theorem test_group_row_of_the_accumulator :
    bytesFor (enc 0 0 [.reg ⟨0, .w8⟩, .imm (.b8 0x7F)] .signExtend) = some [0x14, 0x7F] ∧
    bytesFor (encode Config.params (.adcR8Imm8 .protectedMode 0 0x7F)) = some [0x14, 0x7F] := by decide

/-! ### The opcode table's words (by hand from R101 and R120) -/

theorem test_table_words_of_operations :
    decodeTableWord 8 0x01 = some (.leSer16 0) ∧ decodeTableWord 8 0x07 = some (.getbit 0 0 .lsbFirst) ∧
    decodeTableWord 8 0x0A = some (.copybits 0 0 0 0 0 .lsbFirst) ∧
    decodeTableWord 8 0x14 = some (.wBitReg (.gpr ⟨0, .w8⟩)) ∧
    decodeTableWord 8 0x1A = some (.asmDisp (.b8 0)) ∧ decodeTableWord 8 0x20 = some (.buildRex 0 0 0 0) ∧
    decodeTableWord 8 0x30 = some (.encode 0 0 0 .absent .absent .noSignExtend .toRM) := by decide

theorem test_table_words_of_forms :
    decodeTableWord 16 0x4805 = some (.addRaxImm32 .bit64 0) ∧
    decodeTableWord 16 0x80D3 = some (.adcR8Imm8 .protectedMode 3 0) ∧
    decodeTableWord 24 0x4813C1 = some (.adcR64Rm64 .bit64 0 1) ∧
    decodeTableWord 8 0x3F = some (.aas .protectedMode) ∧ decodeTableWord 8 0x0E = none := by decide

/-! ### Bit and byte primitives (95_test_vectors.md sections 2.1 and 2.2, S13, S14) -/

theorem test_le_ser :
    bytesFor { op 0x01 with word := 0x1234 } = some [0x34, 0x12] ∧
    bytesFor { op 0x02 with word := 0x12345678 } = some [0x78, 0x56, 0x34, 0x12] ∧
    bytesFor { op 0x03 with word := 0x0102030405060708 } = some [8, 7, 6, 5, 4, 3, 2, 1] ∧
    bytesFor { op 0x03 with word := 0x8000000000000000 } = some [0, 0, 0, 0, 0, 0, 0, 0x80] := by decide

theorem test_le_des :
    wordFor { op 0x04 with bytesIn := ⟨0x34, 0x12, 0, 0, 0, 0, 0, 0⟩ } = some 0x1234 ∧
    wordFor { op 0x04 with bytesIn := ⟨0xFF, 0x00, 9, 9, 9, 9, 9, 9⟩ } = some 0x00FF ∧
    wordFor { op 0x05 with bytesIn := ⟨0, 0, 0, 0x80, 9, 9, 9, 9⟩ } = some 0x80000000 ∧
    wordFor { op 0x06 with bytesIn := ⟨255, 255, 255, 255, 255, 255, 255, 255⟩ } = some 0xFFFFFFFFFFFFFFFF := by decide

theorem test_getbit :
    bitsFor (digits 0x07 0x48 3) = some [1] ∧ bitsFor (digits 0x07 0x48 3 (o := .msbFirst)) = some [0] ∧
    bitsFor (digits 0x07 0x80 7) = some [1] ∧ bitsFor (digits 0x07 0x80 0 (o := .msbFirst)) = some [1] := by decide

theorem test_getbit_boundaries :
    errFor (digits 0x07 0x01 0xFF) = some 3 ∧ bitsFor (digits 0x07 0x01 0) = some [1] ∧
    bitsFor (digits 0x07 0x01 7) = some [0] ∧ errFor (digits 0x07 0x01 8) = some 3 ∧
    errFor (digits 0x07 0x01 0x80) = some 3 ∧ errFor (digits 0x07 0x01 0x7F) = some 3 := by decide

theorem test_setbit :
    bytesFor (digits 0x08 0x40 3 (v := 1)) = some [0x48] ∧
    bytesFor (digits 0x08 0x00 7 (o := .msbFirst) (v := 1)) = some [0x01] ∧
    bytesFor (digits 0x08 0xFF 0 (v := 0)) = some [0xFE] ∧ errFor (digits 0x08 0x48 8 (v := 1)) = some 3 := by decide

theorem test_copybit :
    bytesFor (digits 0x09 0x01 0 0x00 7) = some [0x80] ∧
    bytesFor (digits 0x09 0x00 0 0xFF 0 (o := .msbFirst)) = some [0x7F] ∧
    errFor (digits 0x09 0x01 0 0x00 0xFF) = some 3 ∧ errFor (digits 0x09 0x01 8 0x00 0) = some 3 := by decide

theorem test_copybits :
    bytesFor (digits 0x0A 0xB0 4 0x00 0 4) = some [0x0B] ∧
    bytesFor (digits 0x0A 0x0F 4 0x00 0 4 (o := .msbFirst)) = some [0xF0] ∧
    bytesFor (digits 0x0A 0xA5 0 0x00 0 8) = some [0xA5] ∧
    bytesFor (digits 0x0A 0xFF 7 0x00 0 1) = some [0x01] := by decide

theorem test_copybits_boundaries :
    errFor (digits 0x0A 0xFF 7 0x00 0 2) = some 3 ∧ errFor (digits 0x0A 0xFF 0 0x00 5 4) = some 3 ∧
    errFor (digits 0x0A 0xFF 0 0x00 0 0) = some 3 ∧ errFor (digits 0x0A 0xFF 0xFF 0x00 0 1) = some 3 ∧
    errFor (digits 0x0A 0xFF 0 0x00 0xFF 1) = some 3 ∧ errFor (digits 0x0A 0xFF 0 0x00 0 9) = some 3 := by decide

theorem test_packbits :
    bytesFor { op 0x0B with bseq := [false, true, false, false, true, false, false, false], order := .msbFirst }
      = some [0x48] ∧
    bytesFor { op 0x0B with bseq := [false, true, false, false, true, false, false, false] } = some [0x12] ∧
    errFor { op 0x0B with bseq := List.replicate 7 true } = some 4 ∧
    errFor { op 0x0B with bseq := List.replicate 9 true } = some 4 ∧ errFor (op 0x0B) = some 4 := by decide

theorem test_unpackbits :
    bitsFor { op 0x0C with byte0 := 0x48, order := .msbFirst } = some [0, 1, 0, 0, 1, 0, 0, 0] ∧
    bitsFor { op 0x0C with byte0 := 0x48 } = some [0, 0, 0, 1, 0, 0, 1, 0] := by decide

/-! ### Field encoders (95_test_vectors.md section 2.3, S15–S19) -/

theorem test_enc_reg3 :
    bitsFor { op 0x10 with reg := .gpr ⟨3, .w32⟩ } = some [0, 1, 1] ∧
    bitsFor { op 0x10 with reg := .gpr ⟨0, .w64⟩ } = some [0, 0, 0] ∧
    bitsFor { op 0x10 with reg := .sreg 5 } = some [1, 0, 1] ∧
    errFor { op 0x10 with reg := .sreg 6 } = some 6 ∧ errFor { op 0x10 with reg := .noFile } = some 6 := by decide

theorem test_enc_sreg2 :
    bitsFor { op 0x11 with reg := .sreg 0 } = some [0, 0] ∧ bitsFor { op 0x11 with reg := .sreg 2 } = some [1, 0] ∧
    bitsFor { op 0x11 with reg := .sreg 3 } = some [1, 1] ∧ errFor { op 0x11 with reg := .sreg 4 } = some 2 ∧
    errFor { op 0x11 with reg := .sreg 5 } = some 2 ∧ errFor { op 0x11 with reg := .sreg 7 } = some 6 ∧
    errFor { op 0x11 with reg := .gpr ⟨0, .w32⟩ } = some 6 := by decide

theorem test_opsize_of :
    bitsFor { op 0x12 with reg := .gpr ⟨4, .w8⟩ } = some [0, 0] ∧
    bitsFor { op 0x12 with reg := .gpr ⟨4, .w16⟩ } = some [0, 1] ∧
    bitsFor { op 0x12 with reg := .gpr ⟨0, .w64⟩ } = some [1, 1] ∧
    errFor { op 0x12 with reg := .sreg 1 } = some 6 := by decide

theorem test_w_bit :
    bitsFor { op 0x13 with cls := .w8 } = some [0] ∧ bitsFor { op 0x13 with cls := .w16 } = some [1] ∧
    bitsFor { op 0x13 with cls := .w32 } = some [1] ∧ bitsFor { op 0x13 with cls := .w64 } = some [1] := by decide

theorem test_w_bit_reg :
    bitsFor { op 0x14 with reg := .gpr ⟨1, .w8⟩ } = some [0] ∧
    bitsFor { op 0x14 with reg := .gpr ⟨4, .w16⟩ } = some [1] ∧
    errFor { op 0x14 with reg := .sreg 3 } = some 6 := by decide

theorem test_s_bit :
    bitsFor { op 0x15 with se := .signExtend, cls := .w8 } = some [1] ∧
    bitsFor { op 0x15 with se := .signExtend, cls := .w32 } = some [0] ∧
    bitsFor { op 0x15 with cls := .w8 } = some [0] := by decide

theorem test_d_bit : bitsFor (op 0x16) = some [0] ∧ bitsFor { op 0x16 with dir := .toReg } = some [1] := by decide

theorem test_tttn :
    bitsFor { op 0x17 with cond := 2 } = some [0, 0, 1, 0] ∧ bitsFor { op 0x17 with cond := 5 } = some [0, 1, 0, 1] ∧
    bitsFor { op 0x17 with cond := 15 } = some [1, 1, 1, 1] := by decide

/-! ### Assemblers and prefix builders (95_test_vectors.md sections 2.4 and 2.5, S6–S8) -/

theorem test_asm_modrm :
    bytesFor { op 0x18 with mod := 3, regf := 2, rm := 1 } = some [0xD1] ∧ bytesFor (op 0x18) = some [0x00] ∧
    bytesFor { op 0x18 with mod := 1, rm := 4 } = some [0x44] := by decide

theorem test_asm_sib :
    bytesFor { op 0x19 with scale := 2, index := 1 } = some [0x88] ∧
    bytesFor { op 0x19 with scale := 3, index := 4, base := 5 } = some [0xE5] := by decide

theorem test_asm_disp :
    bytesFor { op 0x1A with disp := 0xFF } = some [0xFF] ∧
    bytesFor { op 0x1A with cls := .w16, disp := 0x1234 } = some [0x34, 0x12] ∧
    bytesFor { op 0x1A with cls := .w32, disp := 0xFFFFFF80 } = some [0x80, 0xFF, 0xFF, 0xFF] ∧
    errFor { op 0x1A with cls := .w64, disp := 0 } = some 2 := by decide

theorem test_build_rex :
    bytesFor { op 0x20 with rexW := 1 } = some [0x48] ∧ bytesFor (op 0x20) = some [0x40] ∧
    bytesFor { op 0x20 with rexR := 1, rexB := 1 } = some [0x45] ∧ bytesFor { op 0x20 with rexB := 1 } = some [0x41] ∧
    bytesFor { op 0x20 with rexX := 1 } = some [0x42] := by decide

theorem test_lpfx_emit :
    bytesFor (kinds 2 [11, 2]) = some [0x66, 0xF3] ∧ bytesFor (kinds 2 [2, 11]) = some [0xF3, 0x66] ∧
    bytesFor (kinds 2 [0, 0]) = some [0xF0, 0xF0] ∧ bytesFor (kinds 4 [6, 7, 8, 12]) = some [0x26, 0x64, 0x65, 0x67] ∧
    bytesFor (kinds 1 [9]) = some [0x2E] := by decide

theorem test_lpfx_emit_boundaries :
    bytesFor (kinds 0 []) = some [] ∧ errFor (kinds 5 [0, 0, 0, 0]) = some 6 ∧ errFor (kinds 1 [13]) = some 6 ∧
    bytesFor (kinds 1 [12, 13]) = some [0x67] := by decide

theorem test_lpfx_recog :
    bitsFor { op 0x22 with byte0 := 0xF3 } = some [0, 0, 1] ∧ bitsFor { op 0x22 with byte0 := 0x65 } = some [0, 1, 0] ∧
    bitsFor { op 0x22 with byte0 := 0x66 } = some [0, 1, 1] ∧ bitsFor { op 0x22 with byte0 := 0x67 } = some [1, 0, 0] ∧
    bitsFor { op 0x22 with byte0 := 0x48 } = some [0, 0, 0] := by decide

/-! ### ENCODE: errors and the order of its checks (95_test_vectors.md sections 2.6 and 2.7) -/

theorem test_encode_alu_errors :
    errFor (enc 0 0 [.reg ⟨0, .w32⟩, .imm (.b16 0x1234)]) = some 2 ∧
    errFor (enc 0 0 [.reg ⟨0, .w32⟩, .imm (.b8 1)]) = some 2 ∧
    errFor (enc 4 0 [.reg ⟨0, .w64⟩, .imm (.b64 1)]) = some 2 ∧
    errFor (enc 0 0 [.reg ⟨0, .w64⟩, .imm (.b32 1)]) = some 1 ∧ errFor (enc 0 0 [.reg ⟨0, .w32⟩, .mem ⟨0⟩]) = some 5 ∧
    errFor (enc 3 0 [.reg ⟨0, .w64⟩, .mem ⟨0⟩]) = some 1 ∧ errFor (enc 0 0 [.imm (.b8 1), .reg ⟨0, .w8⟩]) = some 2 ∧
    errFor (enc 0 0 []) = some 2 ∧ errFor (enc 0 0 [.reg ⟨0, .w32⟩, .reg ⟨0, .w16⟩]) = some 2 := by decide

theorem test_encode_port_codes :
    errFor (enc 0 9 []) = some 5 ∧ errFor (enc 7 9 []) = some 6 ∧
    errFor { enc 0 0 [] with nopnd := 3 } = some 6 := by decide

theorem test_encode_ascii :
    bytesFor (enc 0 4 []) = some [0xD5, 0x0A] ∧ bytesFor (enc 0 4 [.imm (.b8 0x37)]) = some [0xD5, 0x37] ∧
    errFor (enc 0 2 [.imm (.b8 1)]) = some 2 ∧ errFor (enc 0 4 [.imm (.b16 10)]) = some 2 ∧
    errFor (enc 0 5 [.imm (.b8 10), .imm (.b8 10)]) = some 2 ∧ errFor (enc 4 2 []) = some 1 ∧
    errFor (enc 4 4 [.imm (.b16 10)]) = some 1 := by decide

/-- Programs P2 and P3 of 95_test_vectors.md: a request after an error gives what it gives first. -/
theorem test_request_after_an_error :
    (match step (present (enc 1 0 [.reg ⟨1, .w32⟩, .reg ⟨2, .w32⟩])
        (serve [enc 4 2 [], enc 0 0 [.reg ⟨0, .w32⟩, .mem ⟨0⟩]] State.reset)) with
      | .next t => t.out.bytesOut
      | .fault _ => none
      | .refused _ => none) = some [0x66, 0x11, 0xD1] := by decide

/-! ### Parameters (R9): a unit built with others -/

/-- A unit whose Protected mode defaults to 16 bits and whose `pkinds` port has five slots. -/
def otherUnit : State :=
  { State.reset with params := { modeWidths := { protectedMode := .w16 }, lpfxMax := 5 } }

theorem test_other_parameters :
    exec (.addEaxImm32 .protectedMode 1) otherUnit = drive (.ok (.bytes [0x66, 0x05, 1, 0, 0, 0])) otherUnit ∧
    exec (.lpfxEmit 5 [0, 1, 2, 11, 12]) otherUnit = drive (.ok (.bytes [0xF0, 0xF2, 0xF3, 0x66, 0x67])) otherUnit :=
  ⟨rfl, rfl⟩

/-! ### Fetching: the request is where a step takes its instruction from -/

theorem test_with_fetch_word_steps :
    ((match step (State.reset.withFetchWord 16 0x4805) with
      | .next t => t.out.bytesOut
      | .fault _ => none
      | .refused _ => none) = some [0x48, 0x05, 0, 0, 0, 0]) ∧
    (State.reset.withFetchWord 8 0x0E).inp.op = 0x0E := by decide

/-! ### Witnesses: for each statement with hypotheses, values that meet them, at the ends of their ranges -/

/-- A state that presents an operation selector. -/
def onOp (c : BitVec 8) : State := present (op c) State.reset

theorem test_witness_PayloadLiesOnItsPorts : (List.replicate 15 (0 : Byte)).length ≤ 15 ∧ ([] : ByteSeq).length ≤ 15 ∧
    ([true, false, true, true, false, true, true, true] : BitSeq).length ≤ 8 ∧
    7 < ([true, false, true, true, false, true, true, true] : BitSeq).length ∧ 0 < ([true] : BitSeq).length := by decide

theorem test_witness_StepRunsTheDecodedRequest : decodeRequest (onOp 0x0C).inp = .ok (.unpackbits 0 .lsbFirst) := rfl

theorem test_witness_UnlistedOpCodeIsUnsupported :
    ([0x00, 0x0D, 0x0F, 0x1B, 0x1F, 0x23, 0x2F, 0x31, 0xFF] : List (BitVec 8)).all
    (fun c => !([0x01, 0x02, 0x03, 0x04, 0x05, 0x06, 0x07, 0x08, 0x09, 0x0A, 0x0B, 0x0C, 0x10, 0x11, 0x12, 0x13,
      0x14, 0x15, 0x16, 0x17, 0x18, 0x19, 0x1A, 0x20, 0x21, 0x22, 0x30] : List (BitVec 8)).contains (onOp c).inp.op)
    = true := by decide

theorem test_witness_RequestRoundTrip : Instr.wf Config.params (.copybits 1 (-128) 2 127 (-1) .msbFirst) = true ∧
    Instr.wf Config.params (.packbits (List.replicate 15 true) .msbFirst) = true ∧
    Instr.wf Config.params (.lpfxEmit 3 [15, 0, 12]) = true ∧
    Instr.wf Config.params (.encode 7 255 3 (.mem ⟨1⟩) (.imm (.b64 1)) .signExtend .toReg) = true ∧
    Instr.wf Config.params (.addR64Imm32 .protectedMode 7 1) = true := by decide

theorem test_witness_DecodedRequestIsWellFormed :
    Request.wf Config.params (digits 0x07 0x48 0x80) = true ∧
    decodeRequest (digits 0x07 0x48 0x80) = .ok (.getbit 0x48 (-128) .lsbFirst) :=
  ⟨by decide, rfl⟩

/-- Every clause of a statement that says which instruction an operation selector is has a state for it. -/
theorem test_witness_op_clauses : ([0x01, 0x02, 0x03, 0x04, 0x05, 0x06, 0x07, 0x08, 0x09, 0x0A, 0x0B, 0x0C, 0x10, 0x11,
    0x12, 0x13, 0x14, 0x15, 0x16, 0x17, 0x18, 0x19, 0x1A, 0x20, 0x21, 0x22, 0x30] : List (BitVec 8)).all
    (fun c => (onOp c).inp.op == c && (reads (onOp c).inp).isSome) = true := by decide

theorem test_witness_GetbitReadsTheDigit : (0 ≤ (0 : Int) ∧ (0 : Int) ≤ 7) ∧ (0 ≤ (7 : Int) ∧ (7 : Int) ≤ 7) ∧
    ((-1 : Int) < 0 ∨ 7 < (-1 : Int)) ∧ ((8 : Int) < 0 ∨ 7 < (8 : Int)) := by decide

theorem test_witness_SetbitChangesOneBit : (0 ≤ (0 : Int) ∧ (0 : Int) ≤ 7) ∧ (0 ≤ (7 : Int) ∧ (7 : Int) ≤ 7) ∧
    ((-1 : Int) < 0 ∨ 7 < (-1 : Int)) ∧ ((8 : Int) < 0 ∨ 7 < (8 : Int)) := by decide

theorem test_witness_CopybitChangesOneBit :
    ((0 ≤ (0 : Int) ∧ (0 : Int) ≤ 7) ∧ (0 ≤ (7 : Int) ∧ (7 : Int) ≤ 7)) ∧
    (((-1 : Int) < 0 ∨ 7 < (-1 : Int)) ∨ ((0 : Int) < 0 ∨ 7 < (0 : Int))) ∧
    (((7 : Int) < 0 ∨ 7 < (7 : Int)) ∨ ((8 : Int) < 0 ∨ 7 < (8 : Int))) := by decide

theorem test_witness_CopybitsCopiesTheRun : validRun 0 0 8 = true ∧ validRun 7 7 1 = true ∧ validRun 3 4 4 = true ∧
    validRun 0 0 0 = false ∧ validRun 0 0 9 = false ∧ validRun (-1) 0 1 = false ∧ validRun 7 0 2 = false ∧
    validRun 0 7 2 = false := by decide

theorem test_witness_PackbitsPlacesEachElement : (List.replicate 8 true : BitSeq).length = 8 ∧
    ([] : BitSeq).length ≠ 8 ∧ (List.replicate 7 true : BitSeq).length ≠ 8 ∧
    (List.replicate 9 true : BitSeq).length ≠ 8 := by decide

theorem test_witness_UnpackbitsUndoesPackbits :
    ([true, false, false, true, true, false, true, false] : BitSeq).length = 8 := by decide

theorem test_witness_EncReg3GivesTheCode : (5 : BitVec 3).toNat ≤ 5 ∧ 5 < (6 : BitVec 3).toNat ∧
    5 < (7 : BitVec 3).toNat := by decide

theorem test_witness_EncSreg2FitsFourRegisters : (3 : BitVec 3).toNat ≤ 3 ∧
    ((4 : BitVec 3).toNat = 4 ∨ (4 : BitVec 3).toNat = 5) ∧ ((5 : BitVec 3).toNat = 4 ∨ (5 : BitVec 3).toNat = 5) ∧
    5 < (6 : BitVec 3).toNat := by decide

theorem test_witness_RegisterClassAndWidthBit : (∀ g, RegPort.sreg 0 ≠ .gpr g) ∧ (∀ g, RegPort.noFile ≠ .gpr g) ∧
    ∀ g, RegPort.spr ⟨0⟩ ≠ .gpr g := by
  simp

theorem test_witness_PrefixesAreEmittedInCallerOrder :
    ([.segEs, .segFs, .segGs, .addrsize] : List PrefixKind).length ≤ State.reset.params.lpfxMax ∧
    ([0, 12, 9, 10] : List (BitVec 4)).length ≤ State.reset.params.lpfxMax ∧
    (∀ c ∈ ([0, 12, 9, 10] : List (BitVec 4)), c.toNat ≤ 12) ∧ (List.replicate 7 PrefixKind.opsize).length ≤ 7 ∧
    State.reset.params.lpfxMax < (5 : BitVec 3).toNat ∧
    (∃ c ∈ ([12, 13] : List (BitVec 4)).take (2 : BitVec 3).toNat, 12 < c.toNat) := by decide

theorem test_witness_EmittedPrefixIsRecognised : 1 ≤ State.reset.params.lpfxMax := by decide

theorem test_witness_PrefixByteIsRecognisedByGroup : (0xF2 : Byte) ∈ ([0xF0, 0xF2, 0xF3] : List Byte) ∧
    (0x65 : Byte) ∈ ([0x2E, 0x36, 0x3E, 0x26, 0x64, 0x65] : List Byte) ∧
    (0x40 : Byte) ∉ ([0xF0, 0xF2, 0xF3, 0x2E, 0x36, 0x3E, 0x26, 0x64, 0x65, 0x66, 0x67] : List Byte) := by decide

theorem test_witness_EncodeChecksPortCodesInOrder : 4 < (5 : BitVec 3).toNat ∧
    ((4 : BitVec 3).toNat ≤ 4 ∧ (3 : BitVec 2) = 3) ∧
    ((4 : BitVec 3).toNat ≤ 4 ∧ (2 : BitVec 2) ≠ 3 ∧ 5 < (6 : BitVec 8).toNat) := by decide

/-- Here the other operand is a memory reference, so the mode check is seen to come first. -/
theorem test_witness_Register64NeedsMode64 : Mode.compatibility ≠ .bit64 ∧ (Mnemonic.add = .adc ∨ Mnemonic.add = .add) ∧
    (⟨7, .w64⟩ : Gpr).cls = .w64 ∧
    ((Operand.mem ⟨0⟩ = .reg ⟨7, .w64⟩ ∧ ((2 : BitVec 2) = 1 ∨ (2 : BitVec 2) = 2)) ∨
      (Operand.reg ⟨7, .w64⟩ = .reg ⟨7, .w64⟩ ∧ (2 : BitVec 2) = 2)) := by decide

/-- For the clause of memory: a register and a memory reference. -/
theorem test_witness_AluShapesOutsideTheFormsFail_memory :
    usedOperands 2 (.reg ⟨0, .w32⟩) (.mem ⟨0⟩) = some [.reg ⟨0, .w32⟩, .mem ⟨0⟩] ∧
    (∀ r, Operand.reg r ∈ ([.reg ⟨0, .w32⟩, .mem ⟨0⟩] : List Operand) → r.cls ≠ .w64) ∧
    ∃ x, Operand.mem x ∈ ([.reg ⟨0, .w32⟩, .mem ⟨0⟩] : List Operand) := by
  refine ⟨rfl, ?_, ⟨0⟩, by simp⟩
  intro r h
  simp at h
  simp [h]

/-- For the clause of shapes: an immediate first, in Bit64. -/
theorem test_witness_AluShapesOutsideTheFormsFail_shape :
    usedOperands 2 (.imm (.b8 1)) (.reg ⟨0, .w64⟩) = some [.imm (.b8 1), .reg ⟨0, .w64⟩] ∧
    (∀ x, Operand.mem x ∉ ([.imm (.b8 1), .reg ⟨0, .w64⟩] : List Operand)) ∧
    (∀ d v, ([.imm (.b8 1), .reg ⟨0, .w64⟩] : List Operand) ≠ [.reg d, .imm v]) ∧
    ∀ d r, ([.imm (.b8 1), .reg ⟨0, .w64⟩] : List Operand) ≠ [.reg d, .reg r] := by
  refine ⟨rfl, ?_, ?_, ?_⟩ <;> simp

/-- One width pair for each clause: AL with imm8, RDI with imm32, RDI with a sign-extended imm8, RDI with imm64. -/
theorem test_witness_EncodeRegisterImmediate :
    ((⟨7, .w64⟩ : Gpr).cls = .w64 → Mode.bit64 = .bit64) ∧ riKind .w8 .w8 .signExtend = some .full ∧
    riKind .w64 .w32 .noSignExtend = some .full ∧ riKind .w64 .w8 .signExtend = some .sext8 ∧
    riKind .w64 .w64 .noSignExtend = none ∧ riKind .w64 .w8 .noSignExtend = none := by decide

theorem test_witness_EncodeRegisterRegister :
    ((⟨7, .w64⟩ : Gpr).cls = .w64 ∨ (⟨0, .w8⟩ : Gpr).cls = .w64 → Mode.bit64 = .bit64) ∧
    (⟨7, .w64⟩ : Gpr).cls ≠ (⟨0, .w8⟩ : Gpr).cls ∧ (⟨7, .w64⟩ : Gpr).cls = (⟨0, .w64⟩ : Gpr).cls := by decide

theorem test_witness_AaaAndAasEmitOneByte : Mode.compatibility ≠ .bit64 ∧ ((1 : BitVec 2) = 1 ∨ (1 : BitVec 2) = 2) ∧
    (0 : BitVec 2) ≠ 3 := by decide

theorem test_witness_AadAndAamEmitTheBase : Mode.realAddress ≠ .bit64 ∧
    (∀ b, Operand.imm (.b16 10) ≠ .imm (.b8 b)) ∧ (2 : BitVec 2) ≠ 3 := by
  refine ⟨by decide, by simp, by decide⟩

theorem test_witness_GroupRowsEmitTheFullImmediate : (1 : BitVec 3) ≠ 0 ∧ (7 : BitVec 3) ≠ 0 := by decide

theorem test_witness_Rows64FailOutsideMode64 : Mode.protectedMode ≠ .bit64 ∧
    errFor (encode Config.params (.addRaxImm32 .protectedMode 1)) = some 1 ∧
    errFor (encode Config.params (.adcR64Rm64 .realAddress 7 1)) = some 1 := by decide

theorem test_witness_EncodeAgreesWithItsRow :
    formOf 4 0 2 (.reg ⟨2, .w64⟩) (.imm (.b8 0)) .signExtend .toRM = some (.adcR64Imm8sx .bit64 2 0) ∧
    formOf 1 4 0 .absent .absent .noSignExtend .toRM = some (.aadImm8 .realAddress 0x0A) ∧
    (present (enc 4 0 [.reg ⟨2, .w64⟩, .imm (.b8 0)] .signExtend) State.reset).inp.op = 0x30 ∧
    (present (enc 0 0 [.reg ⟨0, .w32⟩, .mem ⟨0⟩]) State.reset).inp.op = 0x30 := by decide

/-- The longest result: 7 bytes. The shortest: 1 byte. -/
theorem test_witness_EncodeEmitsAtMostSevenBytes :
    bytesFor (enc 4 0 [.reg ⟨3, .w64⟩, .imm (.b32 0xFFFFFFFF)]) = some [0x48, 0x81, 0xD3, 0xFF, 0xFF, 0xFF, 0xFF] ∧
    bytesFor (enc 0 2 []) = some [0x37] := by decide

theorem test_witness_EncodeEmitsOnlyAdmittedPatterns :
    bytesFor (enc 4 1 [.reg ⟨0, .w16⟩, .reg ⟨3, .w16⟩] .noSignExtend .toReg) = some [0x66, 0x03, 0xC3] ∧
    bytesFor (enc 4 1 [.reg ⟨0, .w64⟩, .reg ⟨3, .w64⟩] .noSignExtend .toReg) = some [0x48, 0x03, 0xC3] := by decide

theorem test_witness_EmittedBytesDecodeBack : State.reset.params.wf = true ∧
    Instr.wf Config.params (.adcR64Imm32 .bit64 3 5) = true ∧ (Instr.adcR64Imm32 .bit64 3 5).formMode = some .bit64 ∧
    DrivesBytes (exec (.adcR64Imm32 .bit64 3 5) State.reset) State.reset [0x48, 0x81, 0xD3, 5, 0, 0, 0] :=
  ⟨rfl, rfl, rfl, _, rfl, rfl, rfl, rfl, rfl, rfl⟩

theorem test_witness_CallerPrefixesKeepTheInstruction :
    PrefixKind.opsize ∉ ([.segFs, .lock, .addrsize, .rep] : List PrefixKind) ∧
    ([.segFs, .lock, .addrsize, .rep] : List PrefixKind).length ≤ State.reset.params.lpfxMax ∧
    State.reset.params.wf = true ∧
    DrivesBytes (exec (.lpfxEmit 4 ([.segFs, .lock, .addrsize, .rep].map PrefixKind.code)) State.reset) State.reset
      [0x64, 0xF0, 0x67, 0xF3] ∧
    DrivesBytes (exec (.adcRm64R64 .bit64 0 3) State.reset) State.reset [0x48, 0x11, 0xD8] :=
  ⟨by decide, by decide, by decide, ⟨_, rfl, rfl, rfl, rfl, rfl, rfl⟩, _, rfl, rfl, rfl, rfl, rfl, rfl⟩

/-- Operands for each clause: AX with imm16, RDI with imm32, EBX with a sign-extended imm8, two 64-bit registers; with
the override (AX in Protected, EBX in RealAddress), without a prefix (EAX in Protected) and with REX.W. -/
theorem test_witness_EncodeIsComposedOfThePrimitives : 1 ≤ State.reset.params.lpfxMax ∧
    ((⟨7, .w64⟩ : Gpr).cls = .w64 → Mode.bit64 = .bit64) ∧
    ((⟨0, .w16⟩ : Gpr).cls = .w64 → Mode.protectedMode = .bit64) ∧
    State.reset.params.defaultOpsize .protectedMode = .w32 ∧ State.reset.params.defaultOpsize .realAddress = .w16 ∧
    bytesFor (enc 0 0 [.reg ⟨0, .w16⟩, .imm (.b16 0x1234)]) = some [0x66, 0x15, 0x34, 0x12] ∧
    bytesFor (enc 0 1 [.reg ⟨0, .w32⟩, .imm (.b32 1)]) = some [0x05, 1, 0, 0, 0] ∧
    bytesFor (enc 4 0 [.reg ⟨7, .w64⟩, .imm (.b32 1)]) = some [0x48, 0x81, 0xD7, 1, 0, 0, 0] ∧
    bytesFor (enc 1 1 [.reg ⟨3, .w32⟩, .imm (.b8 1)] .signExtend) = some [0x66, 0x83, 0xC3, 1] ∧
    bytesFor (enc 4 1 [.reg ⟨7, .w64⟩, .reg ⟨4, .w64⟩]) = some [0x48, 0x01, 0xE7] := by decide

/-- Two states that differ in their outputs only, after different requests. -/
theorem test_witness_OutputIsAFunctionOfTheRequest :
    (onOp 0x20).params = (present (op 0x20) (serve [op 0x18] State.reset)).params ∧
    (onOp 0x20).inp = (present (op 0x20) (serve [op 0x18] State.reset)).inp ∧
    (onOp 0x20).out ≠ (present (op 0x20) (serve [op 0x18] State.reset)).out := by decide

theorem test_witness_StepSettles : ∃ t, step (onOp 0x20) = .next t ∧ t ≠ onOp 0x20 :=
  ⟨_, rfl, by decide⟩

theorem test_witness_StepKeepsThePortInvariant : (onOp 0x20).Inv ∧ ∃ t, step (onOp 0x20) = .next t :=
  ⟨⟨by decide, by decide, .inl (by decide)⟩, _, rfl⟩

/-- A state for each clause, and for each operation of the second. -/
theorem test_witness_ErrorsComeFromTheirOperations : errFor (enc 4 2 []) = some 1 ∧ errFor (enc 0 6 []) = some 5 ∧
    errFor { op 0x11 with reg := .sreg 4 } = some 2 ∧ errFor { op 0x1A with cls := .w64 } = some 2 ∧
    errFor (enc 0 0 []) = some 2 ∧ errFor (digits 0x07 0 8) = some 3 ∧ errFor (op 0x0B) = some 4 := by decide

end Sys2Proof.Tests
end

section
/-! PROOFS. Scope (00_scope.md): what one step drives, that a step settles, and the parameters after power-on. -/

namespace Sys2Proof.Machine

/-! ### What a step drives -/

/-- A request that is an instruction runs it. -/
theorem step_of_decode_ok (s : State) (i : Instr) (h : decodeRequest s.inp = .ok i) : step s = exec i s := by
  rw [step, h]

/-- A request that names no operation drives Unsupported (R102). -/
theorem step_of_decode_error (s : State) (e : DecodeError) (h : decodeRequest s.inp = .error e) :
    step s = drive (.err .unsupported) s := by
  rw [step, h]; rfl

/-- A step drives one result, which the parameters and the request determine: the outputs of earlier requests have no
part in it (R53, R88). -/
theorem step_eq_drive (p : Params) (r : Request) :
    ∃ res, ∀ s : State, s.params = p → s.inp = r → step s = drive res s := by
  cases hd : decodeRequest r with
  | ok i =>
    obtain ⟨res, hexec⟩ := exec_eq_drive i p
    exact ⟨res, fun s hp hr => (step_of_decode_ok s i (hr ▸ hd)).trans (hexec s hp)⟩
  | error e => exact ⟨.err .unsupported, fun s _ hr => step_of_decode_error s e (hr ▸ hd)⟩

/-! ### Driving leaves the request and the parameters -/

theorem drive_inp {r : Result} {s t : State} (h : drive r s = .next t) : t.inp = s.inp := by
  rw [(drive_eq_next r s t).1 h]

theorem drive_params {r : Result} {s t : State} (h : drive r s = .next t) : t.params = s.params := by
  rw [(drive_eq_next r s t).1 h]

/-- Driving the result that the ports already carry changes nothing. -/
theorem drive_settled {r : Result} {s t : State} (h : drive r s = .next t) : drive r t = .next t := by
  rw [drive_eq_next, (drive_eq_next r s t).1 h]

/-! ### The obligations -/

/-- Settles O49: the state after a step has the same request and parameters, so a second step drives the same result,
which is on the ports already. -/
theorem stepSettles : Obligations.StepSettles := by
  intro s t hst
  obtain ⟨res, hstep⟩ := step_eq_drive s.params s.inp
  have hdrive : drive res s = .next t := (hstep s rfl rfl).symm.trans hst
  have hinp : t.inp = s.inp := drive_inp hdrive
  have hparams : t.params = s.params := drive_params hdrive
  exact ⟨hinp, hparams, (hstep t hparams hinp).trans (drive_settled hdrive)⟩

/-- Settles O53: the parameters after power-on are `Config.params`, each of whose values is evaluated. -/
theorem powerOnHasTheDefaultParameters : Obligations.PowerOnHasTheDefaultParameters :=
  ⟨rfl, rfl, rfl, rfl, rfl, rfl, rfl, rfl⟩

end Sys2Proof.Machine
end

section
/-! PROOFS. The ports (10_state.md): what lies on the output ports, the invariant a step keeps, that a request is read
back as the instruction it was encoded from, and the codes of the vocabulary. -/

namespace Sys2Proof.Machine

/-! ### What each kind of port carries (R51, R52) -/

theorem drivesWord_drive_word16 (v : BitVec 16) (s : State) :
    DrivesWord (drive (.ok (.word16 v)) s) s (v.setWidth 64) :=
  ⟨_, rfl, rfl, rfl, rfl, rfl⟩

theorem drivesWord_drive_word32 (v : BitVec 32) (s : State) :
    DrivesWord (drive (.ok (.word32 v)) s) s (v.setWidth 64) :=
  ⟨_, rfl, rfl, rfl, rfl, rfl⟩

theorem drivesWord_drive_word64 (v : BitVec 64) (s : State) : DrivesWord (drive (.ok (.word64 v)) s) s v :=
  ⟨_, rfl, rfl, rfl, rfl, rfl⟩

/-- A size class lies on the ports as the bits of its code (R47, R51). -/
theorem drivesBits_drive_size (c : SizeClass) (s : State) :
    DrivesBits (drive (.ok (.size c)) s) s (bitsOf c.code) :=
  drivesBits_drive (bitsOf c.code) s (by simp)

/-- A legacy group lies on the ports as the bits of its code (R51). -/
theorem drivesBits_drive_group (g : Option (Fin 4)) (s : State) :
    DrivesBits (drive (.ok (.group g)) s) s (bitsOf (groupCode g)) :=
  drivesBits_drive (bitsOf (groupCode g)) s (by simp)

/-- The list lies on `bits_out` from its last element up: element `i` is bit `len` − 1 − `i` (R51). -/
theorem bitsOutBit_bitsPorts (b : BitSeq) (i : Nat) (hi : i < b.length) :
    bitsOutBit (bitsPorts b) (b.length - 1 - i) = b[i]? := by
  show b.reverse[b.length - 1 - i]? = b[i]?
  rw [List.getElem?_reverse (by omega)]
  congr 1
  omega

/-- Settles O2: a bit result is the list's own elements, and a size class or a group the bits of its code. -/
theorem payloadLiesOnItsPorts : Obligations.PayloadLiesOnItsPorts := by
  refine ⟨drivesBytes_drive, fun b s hb => drivesBits_drive b s (by omega), bitsOutBit_bitsPorts,
    drivesWord_drive_word16, drivesWord_drive_word32, drivesWord_drive_word64, fun c s => ?_,
    drivesBits_drive_group none, drivesBits_drive_group (some 0), drivesBits_drive_group (some 1),
    drivesBits_drive_group (some 2), drivesBits_drive_group (some 3)⟩
  have hsize := drivesBits_drive_size c s
  cases c <;> exact hsize

/-! ### A step and its result -/

/-- Settles O3: it is how a step is defined where the request names an operation. -/
theorem stepRunsTheDecodedRequest : Obligations.StepRunsTheDecodedRequest :=
  step_of_decode_ok

/-- Settles O48: both steps drive the one result that the parameters and the request determine. -/
theorem outputIsAFunctionOfTheRequest : Obligations.OutputIsAFunctionOfTheRequest := by
  intro s t hparams hinp
  obtain ⟨res, hstep⟩ := step_eq_drive s.params s.inp
  exact ⟨resultPorts res, hstep s rfl rfl, hstep t hparams.symm hinp.symm⟩

/-! ### The codes of the vocabulary (R46, R47, R67–R69) -/

theorem sizeClass_ofCode_code (c : SizeClass) : SizeClass.ofCode c.code = c := by
  cases c <;> rfl

/-- The three unassigned mode codes, listed (R46). -/
theorem mode_ofCode_eq_none_iff (c : BitVec 3) : Mode.ofCode c = none ↔ c = 5 ∨ c = 6 ∨ c = 7 := by
  rw [Mode.ofCode_eq_none]
  revert c
  decide

/-- Settles O8: the numbers are evaluated, and each vocabulary's code undoes its names. -/
theorem portCodesNameTheirValues : Obligations.PortCodesNameTheirValues := by
  refine ⟨rfl, rfl, rfl, rfl, rfl, rfl, rfl, rfl, rfl, rfl, rfl, rfl, rfl, rfl, rfl, rfl, rfl, rfl, rfl, rfl, rfl,
    rfl, rfl, rfl, rfl, rfl, rfl, rfl, ?_⟩
  exact ⟨Mode.ofCode_code, mode_ofCode_eq_none_iff, Mnemonic.ofCode_code, Mnemonic.ofCode_eq_none,
    PrefixKind.ofCode_code, PrefixKind.ofCode_eq_none, sizeClass_ofCode_code⟩

/-- No two condition codes share a name, so the search from code 0 up ends at the code a name belongs to (R67). -/
theorem condOfName_of_mem_condNames (c : BitVec 4) : ∀ name ∈ condNames c, condOfName name = some c := by
  revert c
  decide

theorem condNames_ne_nil (c : BitVec 4) : condNames c ≠ [] := by
  revert c
  decide

/-- Settles O9: the three names stand in the row of code 2. -/
theorem conditionAliasesSpellOneCode : Obligations.ConditionAliasesSpellOneCode :=
  ⟨condOfName_of_mem_condNames 2 "B" (by decide), condOfName_of_mem_condNames 2 "NAE" (by decide),
    condOfName_of_mem_condNames 2 "C" (by decide), fun c => ⟨condNames_ne_nil c, condOfName_of_mem_condNames c⟩⟩

/-! ### LPFX_EMIT and LPFX_RECOG (R243, R244) -/

/-- LPFX_EMIT of as many kinds as `npk` counts gives the kinds' bytes, where the port has the slots. -/
theorem lpfxEmit_kinds (p : Params) (npk : BitVec 3) (ks : List PrefixKind) (hn : npk.toNat = ks.length)
    (hp : ks.length ≤ p.lpfxMax) :
    lpfxEmit p npk (ks.map PrefixKind.code) = .ok (.bytes (ks.map PrefixKind.byte)) := by
  rw [lpfxEmit, if_neg (by omega), List.take_of_length_le (by simp [hn]), kindBytes_map_code]

/-- Settles O28: the byte is the kind's own, whose group is the kind's, whichever kinds share the byte. -/
theorem emittedPrefixIsRecognised : Obligations.EmittedPrefixIsRecognised := by
  intro k s hslot
  have hemit : lpfxEmit s.params 1 [k.code] = .ok (.bytes [k.byte]) := lpfxEmit_kinds s.params 1 [k] rfl hslot
  have hrecog : exec (.lpfxRecog k.byte) s = drive (.ok (.group (some k.group))) s := by
    rw [← prefixGroup_byte k]; rfl
  refine ⟨k.byte, ?_, ?_⟩
  · show DrivesBytes (drive (lpfxEmit s.params 1 [k.code]) s) s [k.byte]
    rw [hemit]
    exact drivesBytes_drive [k.byte] s (by simp)
  · rw [hrecog]
    exact drivesBits_drive_group (some k.group) s

/-! ### Every result fits its ports (R51)

The invariant of the ports needs a bound on what an operation can answer. One bound that knows no parameter serves
every unit: `OUT_MAX` is at least 8 on a unit that can be built, and `bits_out` has 8 bits. -/

/-- The result fits the output ports of every unit that can be built. -/
def Result.Fits : Result → Prop
  | .ok (.bytes bs) => bs.length ≤ 8
  | .ok (.bits b) => 1 ≤ b.length ∧ b.length ≤ 8
  | .ok (.word16 _) | .ok (.word32 _) | .ok (.word64 _) | .ok (.size _) | .ok (.group _) | .err _ => True

@[simp] theorem fits_bytes (bs : ByteSeq) : (Result.ok (.bytes bs)).Fits ↔ bs.length ≤ 8 := Iff.rfl

@[simp] theorem fits_bits (b : BitSeq) : (Result.ok (.bits b)).Fits ↔ 1 ≤ b.length ∧ b.length ≤ 8 := Iff.rfl

@[simp] theorem fits_word16 (v : BitVec 16) : (Result.ok (.word16 v)).Fits := trivial

@[simp] theorem fits_word32 (v : BitVec 32) : (Result.ok (.word32 v)).Fits := trivial

@[simp] theorem fits_word64 (v : BitVec 64) : (Result.ok (.word64 v)).Fits := trivial

@[simp] theorem fits_size (c : SizeClass) : (Result.ok (.size c)).Fits := trivial

@[simp] theorem fits_group (g : Option (Fin 4)) : (Result.ok (.group g)).Fits := trivial

@[simp] theorem fits_err (e : ErrKind) : (Result.err e).Fits := trivial

theorem outMax_of_wf (p : Params) (h : p.wf = true) : 8 ≤ p.outMax ∧ p.outMax ≤ 15 := by
  simp only [Params.wf, Bool.and_eq_true, decide_eq_true_eq] at h
  exact h.2

theorem isError_errPorts (e : ErrKind) : (errPorts e).isError = true := by
  cases e <;> rfl

theorem isSuccess_bytesPorts (p : Params) (bs : ByteSeq) (hp : p.wf = true) (h : bs.length ≤ 8) :
    (bytesPorts bs).isSuccess p = true := by
  have hmax : bs.length ≤ p.outMax := h.trans (outMax_of_wf p hp).1
  have hlen : bs.length < 16 := by omega
  simp [OutPorts.isSuccess, bytesPorts, hmax, Nat.mod_eq_of_lt hlen]

theorem isSuccess_bitsPorts (p : Params) (b : BitSeq) (h : 1 ≤ b.length ∧ b.length ≤ 8) :
    (bitsPorts b).isSuccess p = true := by
  have hlen : b.length < 16 := by omega
  simp [OutPorts.isSuccess, bitsPorts, h, Nat.mod_eq_of_lt hlen]

theorem isSuccess_wordPorts (p : Params) (n : Nat) (v : BitVec 64) : (wordPorts n v).isSuccess p = true := rfl

/-- A result that fits is one whole result on the ports: an error, or a success with one payload. -/
theorem resultPorts_whole (p : Params) (r : Result) (hp : p.wf = true) (h : r.Fits) :
    (resultPorts r).isError = true ∨ (resultPorts r).isSuccess p = true := by
  cases r with
  | err e => exact .inl (isError_errPorts e)
  | ok payload =>
    right
    cases payload with
    | bytes bs => exact isSuccess_bytesPorts p bs hp h
    | bits b => exact isSuccess_bitsPorts p b h
    | word16 v => exact isSuccess_wordPorts p 16 _
    | word32 v => exact isSuccess_wordPorts p 32 _
    | word64 v => exact isSuccess_wordPorts p 64 v
    | size c => exact isSuccess_bitsPorts p _ (by simp)
    | group g => exact isSuccess_bitsPorts p _ (by simp)

/-! #### The operations of R101 -/

theorem fits_getbit (b : Byte) (d : Int) (o : BitOrder) : (getbit b d o).Fits := by
  unfold getbit; split <;> simp

theorem fits_setbit (b : Byte) (d : Int) (v : BitVec 1) (o : BitOrder) : (setbit b d v o).Fits := by
  unfold setbit; split <;> simp

theorem fits_copybit (src : Byte) (sd : Int) (dst : Byte) (dd : Int) (o : BitOrder) :
    (copybit src sd dst dd o).Fits := by
  unfold copybit; split <;> simp

theorem fits_copybits (src : Byte) (sd : Int) (dst : Byte) (dd n : Int) (o : BitOrder) :
    (copybits src sd dst dd n o).Fits := by
  unfold copybits; split <;> simp

theorem fits_packbits (bs : BitSeq) (o : BitOrder) : (packbits bs o).Fits := by
  unfold packbits; split <;> simp

theorem fits_encReg3 (r : RegPort) : (encReg3 r).Fits := by
  unfold encReg3; split
  case h_2 => split <;> simp
  all_goals simp

theorem fits_encSreg2 (r : RegPort) : (encSreg2 r).Fits := by
  unfold encSreg2; split
  case h_1 => split_ifs <;> simp
  all_goals simp

theorem fits_opsizeOf (r : RegPort) : (opsizeOf r).Fits := by
  cases r <;> simp [opsizeOf]

@[simp] theorem length_wBit (c : SizeClass) : (wBit c).length = 1 := by
  cases c <;> rfl

theorem fits_wBitReg (r : RegPort) : (wBitReg r).Fits := by
  cases r <;> simp [wBitReg]

@[simp] theorem length_sBit (se : SignExtend) (c : SizeClass) : (sBit se c).length = 1 := by
  unfold sBit; split <;> rfl

@[simp] theorem length_dBit (dir : Direction) : (dBit dir).length = 1 := by
  cases dir <;> rfl

@[simp] theorem length_unpackBits (o : BitOrder) (b : Byte) : (unpackBits o b).length = 8 := by
  simp [unpackBits]

theorem fits_asmDisp (d : Sized) : (asmDisp d).Fits := by
  cases d <;> simp [asmDisp]

/-- LPFX_EMIT gives a byte for each slot in use, and 3 bits count at most 7 of them. -/
theorem fits_lpfxEmit (p : Params) (npk : BitVec 3) (kinds : List (BitVec 4)) : (lpfxEmit p npk kinds).Fits := by
  unfold lpfxEmit
  split
  · simp
  · split
    · rename_i bs hbs
      have hlen : bs.length = min npk.toNat kinds.length := by simpa using length_kindBytes _ _ hbs
      rw [fits_bytes]
      omega
    · simp

/-! #### ENCODE and its forms -/

/-- The selector gives one byte at most (R248). -/
theorem length_prefixPart_le (p : Params) (c : SizeClass) (m : Mode) : (prefixPart p c m).length ≤ 1 := by
  rw [prefixPart_eq]
  cases c
  case w16 | w32 => dsimp only; split <;> simp
  all_goals simp

/-- No admitted immediate is wider than 32 bits (R265). -/
theorem length_leBytes_of_riKind (w : SizeClass) (v : Sized) (se : SignExtend) (kind : RiKind)
    (h : riKind w v.cls se = some kind) : v.leBytes.length ≤ 4 := by
  cases v with
  | b64 x => cases w <;> cases h
  | b8 x | b16 x | b32 x => simp [Sized.leBytes]

theorem fits_riEncode (p : Params) (k : Mnemonic) (d : Gpr) (v : Sized) (se : SignExtend) (m : Mode) :
    (riEncode p k d v se m).Fits := by
  have hpre := length_prefixPart_le p d.cls m
  unfold riEncode
  split
  · simp
  · rename_i kind hkind
    have himm := length_leBytes_of_riKind _ _ _ _ hkind
    split <;> simp only [fits_bytes, List.length_append, List.length_cons, List.length_nil] <;> omega

theorem fits_rrEncode (p : Params) (k : Mnemonic) (d r : Gpr) (dir : Direction) (m : Mode) :
    (rrEncode p k d r dir m).Fits := by
  have hpre := length_prefixPart_le p d.cls m
  unfold rrEncode
  split
  · simp
  · simp only [fits_bytes, List.length_append, List.length_cons, List.length_nil]
    omega

theorem fits_alu (p : Params) (k : Mnemonic) (ops : List Operand) (se : SignExtend) (dir : Direction) (m : Mode) :
    (alu p k ops se dir m).Fits := by
  unfold alu
  split
  · simp
  · split
    · simp
    · simp
    · exact fits_riEncode _ _ _ _ _ _
    · exact fits_rrEncode _ _ _ _ _ _

theorem fits_ascii (k : Mnemonic) (ops : List Operand) (m : Mode) : (ascii k ops m).Fits := by
  unfold ascii
  split
  · simp
  · cases k with
    | aaa => dsimp only; unfold aaa; split <;> simp
    | aas => dsimp only; unfold aas; split <;> simp
    | aad => dsimp only; unfold aad; split <;> simp
    | aam => dsimp only; unfold aam; split <;> simp
    | adc | add => simp

theorem fits_encodeResult (p : Params) (mode : BitVec 3) (mn : BitVec 8) (n : BitVec 2) (o0 o1 : Operand)
    (se : SignExtend) (dir : Direction) : (encodeResult p mode mn n o0 o1 se dir).Fits := by
  unfold encodeResult
  split
  · simp
  · split
    · simp
    · split
      case h_1 | h_2 => exact fits_alu _ _ _ _ _ _
      case h_3 | h_4 | h_5 | h_6 => exact fits_ascii _ _ _
      case h_7 => simp

theorem fits_aluForm (p : Params) (c : SizeClass) (m : Mode) (body : ByteSeq) (h : body.length ≤ 7) :
    (aluForm p c m body).Fits := by
  have hpre := length_prefixPart_le p c m
  rw [aluForm_eq]
  split
  · simp
  · rw [fits_bytes, List.length_append]
    omega

theorem length_grpFullBody_le (short op base : Byte) (r : BitVec 3) (imm : ByteSeq) :
    (grpFullBody short op base r imm).length ≤ imm.length + 2 := by
  unfold grpFullBody; split <;> simp

/-- A group 1 row with an immediate of at most 4 bytes. -/
theorem fits_grpForm (p : Params) (c : SizeClass) (m : Mode) (short op base : Byte) (r : BitVec 3) (imm : ByteSeq)
    (h : imm.length ≤ 4) : (aluForm p c m (grpFullBody short op base r imm)).Fits := by
  have hbody := length_grpFullBody_le short op base r imm
  exact fits_aluForm _ _ _ _ (by omega)

theorem fits_asciiForm (m : Mode) (bytes : ByteSeq) (h : bytes.length ≤ 8) : (asciiForm m bytes).Fits := by
  rw [asciiForm_eq]; split <;> simp [h]

/-! #### The invariant -/

/-- Every operation drives a result that fits its ports. -/
theorem exec_fits (i : Instr) (s : State) : ∃ r : Result, r.Fits ∧ exec i s = drive r s := by
  cases i
  case leSer16 | leSer32 | leSer64 => exact ⟨_, by simp, rfl⟩
  case leDes16 => exact ⟨_, fits_word16 _, rfl⟩
  case leDes32 => exact ⟨_, fits_word32 _, rfl⟩
  case leDes64 => exact ⟨_, fits_word64 _, rfl⟩
  case getbit => exact ⟨_, fits_getbit _ _ _, rfl⟩
  case setbit => exact ⟨_, fits_setbit _ _ _ _, rfl⟩
  case copybit => exact ⟨_, fits_copybit _ _ _ _ _, rfl⟩
  case copybits => exact ⟨_, fits_copybits _ _ _ _ _ _, rfl⟩
  case packbits => exact ⟨_, fits_packbits _ _, rfl⟩
  case encReg3 => exact ⟨_, fits_encReg3 _, rfl⟩
  case encSreg2 => exact ⟨_, fits_encSreg2 _, rfl⟩
  case opsizeOf => exact ⟨_, fits_opsizeOf _, rfl⟩
  case wBitReg => exact ⟨_, fits_wBitReg _, rfl⟩
  case unpackbits | wBit | sBit | dBit | tttn => exact ⟨_, by simp, rfl⟩
  case asmModrm | asmSib | buildRex => exact ⟨_, by simp, rfl⟩
  case asmDisp => exact ⟨_, fits_asmDisp _, rfl⟩
  case lpfxEmit => exact ⟨_, fits_lpfxEmit _ _ _, rfl⟩
  case lpfxRecog => exact ⟨_, fits_group _, rfl⟩
  case encode => exact ⟨_, fits_encodeResult _ _ _ _ _ _ _ _, rfl⟩
  case addR8Imm8 | addR16Imm16 | addR32Imm32 | addR64Imm32 | adcR8Imm8 | adcR16Imm16 | adcR32Imm32 | adcR64Imm32 =>
    exact ⟨_, fits_grpForm _ _ _ _ _ _ _ _ (by simp), rfl⟩
  case aaa | aas | aadImm8 | aamImm8 => exact ⟨_, fits_asciiForm _ _ (by simp), rfl⟩
  all_goals exact ⟨_, fits_aluForm _ _ _ _ (by simp), rfl⟩

/-- Every step drives a result that fits its ports. -/
theorem step_fits (s : State) : ∃ r : Result, r.Fits ∧ step s = drive r s := by
  cases hd : decodeRequest s.inp with
  | ok i => rw [step_of_decode_ok s i hd]; exact exec_fits i s
  | error e => exact ⟨_, fits_err .unsupported, step_of_decode_error s e hd⟩

/-- Settles O51: a step leaves the request and the parameters, and the result it drives fits the ports. -/
theorem stepKeepsThePortInvariant : Obligations.StepKeepsThePortInvariant := by
  rintro s t ⟨hparams, hinp, -⟩ hstep
  obtain ⟨r, hfits, hdrive⟩ := step_fits s
  obtain rfl : t = { s with out := resultPorts r } := (drive_eq_next r s t).1 (hdrive ▸ hstep)
  exact ⟨hparams, hinp, resultPorts_whole s.params r hparams hfits⟩

/-! ### What the request decoder reads is well-formed (R45, R101)

A digit port holds 8 bits, and a form is named by its accumulator row wherever it has one (R267). -/

theorem digitFits_toInt (b : BitVec 8) : digitFits b.toInt = true := by
  have hlow := b.le_toInt
  have hhigh := b.toInt_lt
  simp only [digitFits, decide_eq_true_eq]
  omega

/-- A form of a register and an immediate that has a short form is named by it for code 0 only. -/
theorem wf_short_or_group (p : Params) (r : BitVec 3) (short group : Instr) (hshort : short.wf p = true)
    (hgroup : r ≠ 0 → group.wf p = true) : (if r = 0 then short else group).wf p = true := by
  split
  · exact hshort
  · exact hgroup ‹_›

theorem wf_of_addImmForm (p : Params) (m : Mode) (d : Gpr) (v : Sized) (se : SignExtend) (i : Instr)
    (h : addImmForm m d v se = some i) : i.wf p = true := by
  unfold addImmForm at h
  split at h <;> cases h
  case h_1 | h_2 | h_3 | h_4 => exact wf_short_or_group p _ _ _ rfl decide_eq_true
  all_goals rfl

theorem wf_of_adcImmForm (p : Params) (m : Mode) (d : Gpr) (v : Sized) (se : SignExtend) (i : Instr)
    (h : adcImmForm m d v se = some i) : i.wf p = true := by
  unfold adcImmForm at h
  split at h <;> cases h
  case h_1 | h_2 | h_3 | h_4 => exact wf_short_or_group p _ _ _ rfl decide_eq_true
  all_goals rfl

theorem wf_of_addRegForm (p : Params) (m : Mode) (d r : Gpr) (dir : Direction) (i : Instr)
    (h : addRegForm m d r dir = some i) : i.wf p = true := by
  unfold addRegForm at h
  split at h
  · cases h
  · split at h <;> cases h <;> rfl

theorem wf_of_adcRegForm (p : Params) (m : Mode) (d r : Gpr) (dir : Direction) (i : Instr)
    (h : adcRegForm m d r dir = some i) : i.wf p = true := by
  unfold adcRegForm at h
  split at h
  · cases h
  · split at h <;> cases h <;> rfl

/-- The row that operands name is a well-formed one. -/
theorem wf_of_formOfOperands (p : Params) (k : Mnemonic) (m : Mode) (ops : List Operand) (se : SignExtend)
    (dir : Direction) (i : Instr) (h : formOfOperands k m ops se dir = some i) : i.wf p = true := by
  unfold formOfOperands at h
  split at h
  case h_1 => exact wf_of_addImmForm p _ _ _ _ _ h
  case h_2 => exact wf_of_adcImmForm p _ _ _ _ _ h
  case h_3 => exact wf_of_addRegForm p _ _ _ _ _ h
  case h_4 => exact wf_of_adcRegForm p _ _ _ _ _ h
  all_goals cases h
  all_goals rfl

/-- An ENCODE request is a row's, which is well-formed, or it names none, which is what ENCODE itself asks for. -/
theorem wf_decodeEncode (p : Params) (r : Request) : (decodeEncode r).wf p = true := by
  unfold decodeEncode
  cases hform : formOf r.mode r.mn r.nopnd r.opnd0 r.opnd1 r.se r.dir with
  | none => simp [Instr.wf, hform]
  | some i =>
    obtain ⟨m, k, ops, -, -, -, hops⟩ := formOf_eq_some _ _ _ _ _ _ _ _ hform
    exact wf_of_formOfOperands p k m ops r.se r.dir i hops

/-- Settles O6: only the operations with digits, lists or ENCODE's ports have anything to check. -/
theorem decodedRequestIsWellFormed : Obligations.DecodedRequestIsWellFormed := by
  intro p r i hr hd
  simp only [Request.wf, Bool.and_eq_true, decide_eq_true_eq] at hr
  obtain ⟨hbits, hslots⟩ := hr
  unfold decodeRequest at hd
  split at hd <;> cases hd
  -- GETBIT, SETBIT, COPYBIT and COPYBITS
  case h_7 | h_8 => exact digitFits_toInt _
  case h_9 | h_10 => simp [Instr.wf, digitFits_toInt]
  -- PACKBITS and LPFX_EMIT
  case h_11 => simpa [Instr.wf] using hbits
  case h_25 => simp [Instr.wf, hslots]
  -- ENCODE
  case h_27 => exact wf_decodeEncode p r
  all_goals rfl

/-! ### The round trip of a request (R44, R101, R103, R104) -/

/-- The slots LPFX_EMIT reads are the codes that were put there, for the idle slots come after them. -/
theorem take_kindSlots (p : Params) (npk : BitVec 3) (kinds : List (BitVec 4))
    (h : kinds.length = min npk.toNat p.lpfxMax) : (kindSlots p kinds).take npk.toNat = kinds := by
  rw [kindSlots, List.take_append, List.take_of_length_le (by omega)]
  rcases le_total npk.toNat p.lpfxMax with hle | hle <;> simp [h, hle]

/-- ENCODE's ports name the form that their operands name, in the mode and for the mnemonic they hold. -/
theorem formOf_of_used (m : Mode) (k : Mnemonic) (n : BitVec 2) (o0 o1 : Operand) (se : SignExtend) (dir : Direction)
    (ops : List Operand) (h : usedOperands n o0 o1 = some ops) :
    formOf m.code k.code n o0 o1 se dir = formOfOperands k m ops se dir := by
  simp only [formOf, Mode.ofCode_code, Mnemonic.ofCode_code, h]

/-- Op code 0x30 is ENCODE's (R101). -/
theorem decodeRequest_of_op_encode (r : Request) (h : r.op = 0x30) : decodeRequest r = .ok (decodeEncode r) := by
  cases r
  cases h
  rfl

/-- An ENCODE request that names a form is read as that form. -/
theorem decodeRequest_of_form (r : Request) (m : Mode) (k : Mnemonic) (ops : List Operand) (i : Instr)
    (hop : r.op = 0x30) (hm : r.mode = m.code) (hk : r.mn = k.code)
    (hops : usedOperands r.nopnd r.opnd0 r.opnd1 = some ops)
    (hi : formOfOperands k m ops r.se r.dir = some i) : decodeRequest r = .ok i := by
  have hform := (formOf_of_used m k r.nopnd r.opnd0 r.opnd1 r.se r.dir ops hops).trans hi
  rw [decodeRequest_of_op_encode r hop, decodeEncode, hm, hk, hform, Option.getD_some]

theorem decodeRequest_riRequest (p : Params) {k : Mnemonic} {m : Mode} {d : Gpr} {v : Sized} {se : SignExtend}
    {i : Instr} (hi : formOfOperands k m [.reg d, .imm v] se .toRM = some i) :
    decodeRequest (riRequest p k m d v se) = .ok i :=
  decodeRequest_of_form _ m k _ i rfl rfl rfl rfl hi

theorem decodeRequest_rrRequest (p : Params) {k : Mnemonic} {m : Mode} {c : SizeClass} {dst src : BitVec 3}
    {dir : Direction} {i : Instr}
    (hi : formOfOperands k m [.reg ⟨dst, c⟩, .reg ⟨src, c⟩] .noSignExtend dir = some i) :
    decodeRequest (rrRequest p k m c dst src dir) = .ok i :=
  decodeRequest_of_form _ m k _ i rfl rfl rfl rfl hi

theorem decodeRequest_asciiRequest (p : Params) {k : Mnemonic} {m : Mode} {i : Instr}
    (hi : formOfOperands k m [] .noSignExtend .toRM = some i) : decodeRequest (asciiRequest p k m) = .ok i :=
  decodeRequest_of_form _ m k _ i rfl rfl rfl rfl hi

theorem decodeRequest_asciiBaseRequest (p : Params) {k : Mnemonic} {m : Mode} {base : Byte} {i : Instr}
    (hi : formOfOperands k m [.imm (.b8 base)] .noSignExtend .toRM = some i) :
    decodeRequest (asciiBaseRequest p k m base) = .ok i :=
  decodeRequest_of_form _ m k _ i rfl rfl rfl rfl hi

/-- Settles O5. An operation's operands come back from the ports they were put on, at their widths; a form's request
names that form, where a group 1 row of a full-width immediate needs its register not to be the accumulator. -/
theorem requestRoundTrip : Obligations.RequestRoundTrip := by
  intro p i hwf
  cases i
  case leSer16 w => exact congrArg (fun v => Except.ok (Instr.leSer16 v)) (BitVec.setWidth_setWidth_of_le w (by decide))
  case leSer32 w => exact congrArg (fun v => Except.ok (Instr.leSer32 v)) (BitVec.setWidth_setWidth_of_le w (by decide))
  case getbit b d o => exact congrArg (fun d' => Except.ok (Instr.getbit b d' o)) (toInt_ofInt_digit d hwf)
  case setbit b d v o => exact congrArg (fun d' => Except.ok (Instr.setbit b d' v o)) (toInt_ofInt_digit d hwf)
  case copybit src sd dst dd o =>
    obtain ⟨hsd, hdd⟩ := Bool.and_eq_true_iff.1 hwf
    show Except.ok (Instr.copybit src (BitVec.ofInt 8 sd).toInt dst (BitVec.ofInt 8 dd).toInt o) = _
    rw [toInt_ofInt_digit sd hsd, toInt_ofInt_digit dd hdd]
  case copybits src sd dst dd n o =>
    obtain ⟨hdigits, hn⟩ := Bool.and_eq_true_iff.1 hwf
    obtain ⟨hsd, hdd⟩ := Bool.and_eq_true_iff.1 hdigits
    show Except.ok (Instr.copybits src (BitVec.ofInt 8 sd).toInt dst (BitVec.ofInt 8 dd).toInt
      (BitVec.ofInt 8 n).toInt o) = _
    rw [toInt_ofInt_digit sd hsd, toInt_ofInt_digit dd hdd, toInt_ofInt_digit n hn]
  case asmDisp d => exact congrArg (fun v => Except.ok (Instr.asmDisp v)) (Sized.ofPort_toPort d)
  case lpfxEmit npk kinds =>
    exact congrArg (fun ks => Except.ok (Instr.lpfxEmit npk ks)) (take_kindSlots p npk kinds (of_decide_eq_true hwf))
  case encode mode mn nopnd o0 o1 se dir =>
    show Except.ok ((formOf mode mn nopnd o0 o1 se dir).getD (.encode mode mn nopnd o0 o1 se dir)) = _
    rw [Option.isNone_iff_eq_none.1 hwf]; rfl
  case addR8Imm8 | addR16Imm16 | addR32Imm32 | addR64Imm32 | adcR8Imm8 | adcR16Imm16 | adcR32Imm32 | adcR64Imm32 =>
    exact decodeRequest_riRequest p (congrArg some (if_neg (of_decide_eq_true hwf)))
  case addAlImm8 | addAxImm16 | addEaxImm32 | addRaxImm32 | adcAlImm8 | adcAxImm16 | adcEaxImm32 | adcRaxImm32 =>
    exact decodeRequest_riRequest p rfl
  case addR16Imm8sx | addR32Imm8sx | addR64Imm8sx | adcR16Imm8sx | adcR32Imm8sx | adcR64Imm8sx =>
    exact decodeRequest_riRequest p rfl
  case addRm8R8 | addRm16R16 | addRm32R32 | addRm64R64 | addR8Rm8 | addR16Rm16 | addR32Rm32 | addR64Rm64 =>
    exact decodeRequest_rrRequest p rfl
  case adcRm8R8 | adcRm16R16 | adcRm32R32 | adcRm64R64 | adcR8Rm8 | adcR16Rm16 | adcR32Rm32 | adcR64Rm64 =>
    exact decodeRequest_rrRequest p rfl
  case aaa | aas => exact decodeRequest_asciiRequest p rfl
  case aadImm8 | aamImm8 => exact decodeRequest_asciiBaseRequest p rfl
  all_goals rfl

end Sys2Proof.Machine
end

section
/-! PROOFS. Byte order and storage (20_memory.md): serialisation and deserialisation are inverse at each width, and no
earlier request has a part in a result. -/

namespace Sys2Proof

/-! ### Serialisation and deserialisation of any number of bytes (R85, R160) -/

/-- Bit `i` of what the bytes deserialise to is bit `i % 8` of byte `i / 8`; past the last byte it is 0. -/
theorem getLsbD_fromLe (n : Nat) (bs : ByteSeq) (i : Nat) (hi : i < n) :
    (fromLe n bs).getLsbD i = (bs.getD (i / 8) 0).getLsbD (i % 8) := by
  induction bs generalizing i with
  | nil => simp [fromLe]
  | cons b bs ih =>
    rcases Nat.lt_or_ge i 8 with hlow | hhigh
    · simp [fromLe, hi, hlow, Nat.div_eq_of_lt hlow, Nat.mod_eq_of_lt hlow]
    · obtain ⟨j, rfl⟩ := Nat.exists_eq_add_of_le' hhigh
      have hj : j < n := by omega
      simpa [fromLe, hi, hj] using ih j hj

/-- Byte `j` of a serialised value is its bits from `8 * j` up. -/
theorem getD_leBytes (k : Nat) {n : Nat} (v : BitVec n) (j : Nat) (hj : j < k) :
    (leBytes k v).getD j 0 = v.extractLsb' (8 * j) 8 := by
  simp [leBytes, hj]

/-- Deserialisation undoes serialisation where the bytes cover the width. -/
theorem fromLe_leBytes (k n : Nat) (v : BitVec n) (hn : n ≤ 8 * k) : fromLe n (leBytes k v) = v := by
  refine BitVec.eq_of_getLsbD_eq fun i hi => ?_
  have hbit : i % 8 < 8 := Nat.mod_lt i (by decide)
  rw [getLsbD_fromLe n _ i hi, getD_leBytes k v (i / 8) (by omega), BitVec.getLsbD_extractLsb', Nat.div_add_mod]
  simp [hbit]

/-- Serialisation undoes deserialisation where the width holds the bytes. -/
theorem leBytes_fromLe (k n : Nat) (bs : ByteSeq) (hk : bs.length = k) (hn : 8 * k ≤ n) :
    leBytes k (fromLe n bs) = bs := by
  refine List.ext_getElem ((length_leBytes _ _).trans hk.symm) fun j _ hj => ?_
  refine BitVec.eq_of_getLsbD_eq fun i hi => ?_
  have hdiv : (8 * j + i) / 8 = j := by omega
  have hmod : (8 * j + i) % 8 = i := by omega
  simp [leBytes, hi, getLsbD_fromLe n bs (8 * j + i) (by omega), hdiv, hmod, hj]

namespace Machine

/-! ### What LE_SER and LE_DES drive (R161–R166) -/

theorem drivesBytes_leSer16 (w : BitVec 16) (s : State) : DrivesBytes (exec (.leSer16 w) s) s (leBytes 2 w) :=
  drivesBytes_drive (leBytes 2 w) s (by simp)

theorem drivesBytes_leSer32 (w : BitVec 32) (s : State) : DrivesBytes (exec (.leSer32 w) s) s (leBytes 4 w) :=
  drivesBytes_drive (leBytes 4 w) s (by simp)

theorem drivesBytes_leSer64 (w : BitVec 64) (s : State) : DrivesBytes (exec (.leSer64 w) s) s (leBytes 8 w) :=
  drivesBytes_drive (leBytes 8 w) s (by simp)

theorem drivesWord_leDes16 (b0 b1 : Byte) (s : State) :
    DrivesWord (exec (.leDes16 b0 b1) s) s ((fromLe 16 [b0, b1]).setWidth 64) :=
  drivesWord_drive_word16 _ s

theorem drivesWord_leDes32 (b0 b1 b2 b3 : Byte) (s : State) :
    DrivesWord (exec (.leDes32 b0 b1 b2 b3) s) s ((fromLe 32 [b0, b1, b2, b3]).setWidth 64) :=
  drivesWord_drive_word32 _ s

theorem drivesWord_leDes64 (bs : Bytes8) (s : State) : DrivesWord (exec (.leDes64 bs) s) s (fromLe 64 bs.toList) :=
  drivesWord_drive_word64 _ s

/-- The eight bytes of a serialised 64-bit value fill the byte lanes. -/
theorem exists_toList_eq_leBytes (w : BitVec 64) : ∃ bs : Bytes8, bs.toList = leBytes 8 w :=
  ⟨⟨w.extractLsb' 0 8, w.extractLsb' 8 8, w.extractLsb' 16 8, w.extractLsb' 24 8,
    w.extractLsb' 32 8, w.extractLsb' 40 8, w.extractLsb' 48 8, w.extractLsb' 56 8⟩, rfl⟩

/-- Settles O12: the unit drives `leBytes` and `fromLe` of its operand, which undo each other at any width of whole
bytes. -/
theorem serialiseAndDeserialiseAreInverse : Obligations.SerialiseAndDeserialiseAreInverse := by
  intro s
  refine ⟨fun w => ?_, fun w => ?_, fun w => ?_, fun b0 b1 => ?_, fun b0 b1 b2 b3 => ?_, fun bs => ?_⟩
  · have hdes := drivesWord_leDes16 (w.extractLsb' 0 8) (w.extractLsb' 8 8) s
    rw [← leBytes_two, fromLe_leBytes 2 16 w (by decide)] at hdes
    exact ⟨_, _, drivesBytes_leSer16 w s, hdes⟩
  · have hdes := drivesWord_leDes32 (w.extractLsb' 0 8) (w.extractLsb' 8 8) (w.extractLsb' 16 8) (w.extractLsb' 24 8) s
    rw [← leBytes_four, fromLe_leBytes 4 32 w (by decide)] at hdes
    exact ⟨_, _, _, _, drivesBytes_leSer32 w s, hdes⟩
  · obtain ⟨bs, hbs⟩ := exists_toList_eq_leBytes w
    have hdes := drivesWord_leDes64 bs s
    rw [hbs, fromLe_leBytes 8 64 w (by decide)] at hdes
    exact ⟨bs, hbs ▸ drivesBytes_leSer64 w s, hdes⟩
  · have hser := drivesBytes_leSer16 (fromLe 16 [b0, b1]) s
    rw [leBytes_fromLe 2 16 [b0, b1] rfl (by decide)] at hser
    exact ⟨_, drivesWord_leDes16 b0 b1 s, hser⟩
  · have hser := drivesBytes_leSer32 (fromLe 32 [b0, b1, b2, b3]) s
    rw [leBytes_fromLe 4 32 [b0, b1, b2, b3] rfl (by decide)] at hser
    exact ⟨_, drivesWord_leDes32 b0 b1 b2 b3 s, hser⟩
  · have hser := drivesBytes_leSer64 (fromLe 64 bs.toList) s
    rw [leBytes_fromLe 8 64 bs.toList rfl (by decide)] at hser
    exact ⟨_, drivesWord_leDes64 bs s, hser⟩

/-! ### Serving requests one after another (R57, R89) -/

/-- Every step answers a next state, one of a unit with the same parameters (R310, R343). -/
theorem step_answers (s : State) : ∃ t, step s = .next t ∧ t.params = s.params := by
  obtain ⟨res, hstep⟩ := step_eq_drive s.params s.inp
  exact ⟨_, hstep s rfl rfl, rfl⟩

/-- Serving a list of requests changes the ports only (R343). -/
theorem serve_params (history : List Request) (s : State) : (serve history s).params = s.params := by
  induction history generalizing s with
  | nil => rfl
  | cons r rs ih =>
    obtain ⟨t, hstep, hparams⟩ := step_answers (present r s)
    calc (serve (r :: rs) s).params = (serve rs t).params := by rw [serve, hstep]
      _ = t.params := ih t
      _ = s.params := hparams

/-- A request gets one result from every unit with the same parameters: whatever is on its ports is replaced. -/
theorem step_present_congr (r : Request) (s t : State) (h : s.params = t.params) :
    step (present r s) = step (present r t) := by
  obtain ⟨res, hstep⟩ := step_eq_drive t.params r
  calc step (present r s) = drive res (present r s) := hstep (present r s) h rfl
    _ = drive res (present r t) := by simp only [drive, present, h]
    _ = step (present r t) := (hstep (present r t) rfl rfl).symm

/-- Settles O50: the history leaves the parameters, and the request and its result replace the rest. -/
theorem historyDoesNotChangeAResult : Obligations.HistoryDoesNotChangeAResult := fun history r s =>
  step_present_congr r (serve history s) s (serve_params history s)

end Machine

end Sys2Proof
end

section
/-! PROOFS. Encoding (30_encoding.md): the rows of R120 byte for byte, their bytes read back, and ENCODE against its
rows. -/

namespace Sys2Proof.Machine

/-! ### The opcodes of R120 -/

/-- The opcodes of the rows of ADC and ADD. -/
def aluOpcodes : List Byte :=
  [0x00, 0x01, 0x02, 0x03, 0x04, 0x05, 0x10, 0x11, 0x12, 0x13, 0x14, 0x15, 0x80, 0x81, 0x83]

/-- The opcodes of the rows of the ASCII-adjust family. -/
def asciiOpcodes : List Byte := [0x37, 0x3F, 0xD4, 0xD5]

/-- No opcode of a row is one of the bytes of R68 or a REX byte, so the decoder stops at it (R119). -/
theorem opcode_not_legacy_not_rex (op : Byte) (h : op ∈ aluOpcodes ++ asciiOpcodes) :
    prefixGroup op = none ∧ op &&& 0xF0 ≠ 0x40 := by
  revert op
  decide

theorem not_mem_asciiOpcodes (op : Byte) (h : op ∈ aluOpcodes) : op ∉ asciiOpcodes := by
  revert op
  decide

/-! ### What a row can answer (R264, R290) -/

/-- A row of ADC or ADD fails for its mode, or the mode has its registers and its bytes follow the selector's. -/
theorem aluForm_cases (p : Params) (c : SizeClass) (m : Mode) (body : ByteSeq) :
    aluForm p c m body = .err .modeViolation ∨
      (c = .w64 → m = .bit64) ∧ aluForm p c m body = .ok (.bytes (prefixPart p c m ++ body)) := by
  rw [aluForm_eq]
  split
  · exact .inl rfl
  · rename_i hmode
    exact .inr ⟨fun hc => Classical.not_not.1 fun hm => hmode ⟨hc, hm⟩, rfl⟩

/-- An ASCII-adjust row fails in Bit64, and elsewhere its bytes stand alone. -/
theorem asciiForm_cases (m : Mode) (body : ByteSeq) :
    asciiForm m body = .err .modeViolation ∨ m ≠ .bit64 ∧ asciiForm m body = .ok (.bytes body) := by
  rw [asciiForm_eq]
  split
  · exact .inl rfl
  · exact .inr ⟨‹_›, rfl⟩

/-! ### What a row drives (R120, R248, R264) -/

/-- A row of ADC or ADD drives its prefixes and its bytes, where the mode has registers of its width (R264). -/
theorem drivesBytes_aluForm (c : SizeClass) (m : Mode) (body : ByteSeq) (s : State) (h64 : c = .w64 → m = .bit64)
    (hlen : body.length ≤ 7) :
    DrivesBytes (drive (aluForm s.params c m body) s) s (prefixPart s.params c m ++ body) := by
  have hpre := length_prefixPart_le s.params c m
  rw [aluForm_eq, if_neg fun h => h.2 (h64 h.1)]
  exact drivesBytes_drive _ s (by rw [List.length_append]; omega)

theorem drivesBytes_form8 (m : Mode) (body : ByteSeq) (s : State) (hlen : body.length ≤ 7) :
    DrivesBytes (drive (aluForm s.params .w8 m body) s) s body := by
  have h := drivesBytes_aluForm .w8 m body s nofun hlen
  rwa [prefixPart_eq] at h

theorem drivesBytes_form16 (m : Mode) (body : ByteSeq) (s : State) (hlen : body.length ≤ 7) :
    DrivesBytes (drive (aluForm s.params .w16 m body) s) s
      ((if s.params.defaultOpsize m = .w32 then [0x66] else []) ++ body) := by
  have h := drivesBytes_aluForm .w16 m body s nofun hlen
  rwa [prefixPart_eq] at h

theorem drivesBytes_form32 (m : Mode) (body : ByteSeq) (s : State) (hlen : body.length ≤ 7) :
    DrivesBytes (drive (aluForm s.params .w32 m body) s) s
      ((if s.params.defaultOpsize m = .w16 then [0x66] else []) ++ body) := by
  have h := drivesBytes_aluForm .w32 m body s nofun hlen
  rwa [prefixPart_eq] at h

theorem drivesBytes_form64 (body : ByteSeq) (s : State) (hlen : body.length ≤ 7) :
    DrivesBytes (drive (aluForm s.params .w64 .bit64 body) s) s (0x48 :: body) := by
  have h := drivesBytes_aluForm .w64 .bit64 body s (fun _ => rfl) hlen
  rwa [prefixPart_eq] at h

/-- The ModR/M byte of two registers as one number (R120). -/
theorem rrByte_eq_ofNat (reg rm : BitVec 3) : rrByte reg rm = BitVec.ofNat 8 (0xC0 + 8 * reg.toNat + rm.toNat) := by
  revert reg rm
  decide

/-- Settles O36: each row is its opcode and the immediate's bytes, at its operand-size class. -/
theorem accumulatorRowsEmitTheShortForm : Obligations.AccumulatorRowsEmitTheShortForm := by
  intro s m v8 v16 v32
  exact ⟨drivesBytes_form8 m _ s (by simp), drivesBytes_form16 m _ s (by simp), drivesBytes_form32 m _ s (by simp),
    drivesBytes_form64 _ s (by simp), drivesBytes_form8 m _ s (by simp), drivesBytes_form16 m _ s (by simp),
    drivesBytes_form32 m _ s (by simp), drivesBytes_form64 _ s (by simp)⟩

/-- Settles O38: each row is 0x83, its ModR/M byte and the immediate, at its operand-size class. -/
theorem signExtendedRowsEmitOneImmediateByte : Obligations.SignExtendedRowsEmitOneImmediateByte := by
  intro s m r v
  exact ⟨drivesBytes_form16 m _ s (by simp), drivesBytes_form32 m _ s (by simp), drivesBytes_form64 _ s (by simp),
    drivesBytes_form16 m _ s (by simp), drivesBytes_form32 m _ s (by simp), drivesBytes_form64 _ s (by simp)⟩

/-- A group 1 row whose register is not the accumulator drives what its ModR/M form drives (R267). -/
theorem drivesBytes_group_iff (p : Params) (c : SizeClass) (m : Mode) (short op base : Byte) (r : BitVec 3)
    (imm bs : ByteSeq) (s : State) (hr : r ≠ 0) :
    DrivesBytes (drive (aluForm p c m (grpFullBody short op base r imm)) s) s bs ↔
      DrivesBytes (drive (aluForm p c m (op :: grpByte base r :: imm)) s) s bs := by
  rw [grpFullBody_of_ne short op base r imm hr]

/-- Settles O37: with a register that is not the accumulator, each row is its opcode, ModR/M and the immediate. -/
theorem groupRowsEmitTheFullImmediate : Obligations.GroupRowsEmitTheFullImmediate := by
  intro s m r v8 v16 v32 hr
  have group {c : SizeClass} {m' : Mode} {short op base : Byte} {imm bs : ByteSeq}
      (h : DrivesBytes (drive (aluForm s.params c m' (op :: grpByte base r :: imm)) s) s bs) :
      DrivesBytes (drive (aluForm s.params c m' (grpFullBody short op base r imm)) s) s bs :=
    (drivesBytes_group_iff _ _ _ _ _ _ _ _ _ _ hr).2 h
  exact ⟨group (drivesBytes_form8 m _ s (by simp)), group (drivesBytes_form16 m _ s (by simp)),
    group (drivesBytes_form32 m _ s (by simp)), group (drivesBytes_form64 _ s (by simp)),
    group (drivesBytes_form8 m _ s (by simp)), group (drivesBytes_form16 m _ s (by simp)),
    group (drivesBytes_form32 m _ s (by simp)), group (drivesBytes_form64 _ s (by simp))⟩

/-- Settles O39: each row is its opcode and the ModR/M byte `rrByte`, which is the number. -/
theorem registerRowsEmitBothCodes : Obligations.RegisterRowsEmitBothCodes := by
  intro s m dst src
  dsimp only
  rw [← rrByte_eq_ofNat src dst, ← rrByte_eq_ofNat dst src]
  have h8 (op b : Byte) := drivesBytes_form8 m [op, b] s (by simp)
  have h16 (op b : Byte) := drivesBytes_form16 m [op, b] s (by simp)
  have h32 (op b : Byte) := drivesBytes_form32 m [op, b] s (by simp)
  have h64 (op b : Byte) := drivesBytes_form64 [op, b] s (by simp)
  exact ⟨h8 _ _, h16 _ _, h32 _ _, h64 _ _, h8 _ _, h16 _ _, h32 _ _, h64 _ _, h8 _ _, h16 _ _, h32 _ _, h64 _ _,
    h8 _ _, h16 _ _, h32 _ _, h64 _ _⟩

/-! ### The selector and the table's numbers (R101, R102) -/

/-- Settles O4: a code that is none of the table's is read as no operation. -/
theorem unlistedOpCodeIsUnsupported : Obligations.UnlistedOpCodeIsUnsupported := by
  intro s hop
  have hdecode : decodeRequest s.inp = .error (.unassignedOp s.inp.op) := by
    unfold decodeRequest
    split
    case h_28 => rfl
    all_goals exact absurd (by simp [*]) hop
  rw [step_of_decode_error s _ hdecode]
  exact drivesError_drive .unsupported s

/-- Settles O7: each word is evaluated. -/
theorem tableWordsDecode : Obligations.TableWordsDecode :=
  ⟨rfl, rfl, rfl, rfl, rfl, rfl, rfl, rfl, rfl, rfl, rfl⟩

/-! ### Reading back the bytes of a row (R119, R274) -/

/-- The operand size at which the bytes of a row of a class are read: nothing stands before a byte row's opcode, and
that leaves the mode's default. -/
def rowOpsize (p : Params) (m : Mode) : SizeClass → SizeClass
  | .w8 => p.defaultOpsize m
  | .w16 => .w16
  | .w32 => .w32
  | .w64 => .w64

theorem decodeBytes_opcode (p : Params) (m : Mode) (op : Byte) (bs : ByteSeq) (hop : op ∈ aluOpcodes ++ asciiOpcodes) :
    decodeBytes p m (op :: bs) = decodeOpcode m (p.defaultOpsize m) (op :: bs) := by
  obtain ⟨hlegacy, hrex⟩ := opcode_not_legacy_not_rex op hop
  rw [decodeBytes, skipLegacy_of_none op bs hlegacy, takeRex_of_ne m op bs hrex]
  rfl

/-- 0x66 flips the mode's default between 16 and 32 bits. -/
theorem decodeBytes_opsize (p : Params) (m : Mode) (op : Byte) (bs : ByteSeq) (hop : op ∈ aluOpcodes ++ asciiOpcodes) :
    decodeBytes p m (0x66 :: op :: bs) =
      decodeOpcode m (if p.defaultOpsize m = .w32 then .w16 else .w32) (op :: bs) := by
  obtain ⟨hlegacy, hrex⟩ := opcode_not_legacy_not_rex op hop
  have hskip : skipLegacy (0x66 :: op :: bs) = (true, op :: bs) := by
    rw [show (0x66 : Byte) = PrefixKind.opsize.byte from rfl, skipLegacy_byte, skipLegacy_of_none op bs hlegacy]
    rfl
  rw [decodeBytes, hskip, takeRex_of_ne m op bs hrex]
  rfl

/-- Under REX.W the operand size is 64 bits. -/
theorem decodeBytes_rexW (p : Params) (bs : ByteSeq) :
    decodeBytes p .bit64 (0x48 :: bs) = decodeOpcode .bit64 .w64 bs := by
  rw [decodeBytes, skipLegacy_of_none 0x48 bs rfl, takeRex_rexW]
  rfl

/-- The selector's bytes give the row's operand size back (R246–R248). -/
theorem decodeBytes_prefixPart (p : Params) (c : SizeClass) (m : Mode) (op : Byte) (bs : ByteSeq) (hp : p.wf = true)
    (h64 : c = .w64 → m = .bit64) (hop : op ∈ aluOpcodes ++ asciiOpcodes) :
    decodeBytes p m (prefixPart p c m ++ op :: bs) = decodeOpcode m (rowOpsize p m c) (op :: bs) := by
  have hplain := decodeBytes_opcode p m op bs hop
  have hflip := decodeBytes_opsize p m op bs hop
  rw [prefixPart_eq]
  cases c with
  | w8 => exact hplain
  | w16 =>
    rcases defaultOpsize_of_wf p m hp with h | h <;> rw [h] at hplain hflip ⊢
    · exact hplain
    · exact hflip
  | w32 =>
    rcases defaultOpsize_of_wf p m hp with h | h <;> rw [h] at hplain hflip ⊢
    · exact hflip
    · exact hplain
  | w64 =>
    obtain rfl := h64 rfl
    exact decodeBytes_rexW p (op :: bs)

/-- The bytes a row of ADC or ADD drives. -/
theorem eq_of_drivesBytes_aluForm {p : Params} {c : SizeClass} {m : Mode} {body bs : ByteSeq} {s : State}
    (h : DrivesBytes (drive (aluForm p c m body) s) s bs) : (c = .w64 → m = .bit64) ∧ bs = prefixPart p c m ++ body := by
  have hok := drivesBytes_drive_iff _ _ _ h
  obtain herr | ⟨h64, hbytes⟩ := aluForm_cases p c m body
  · cases herr.symm.trans hok
  · cases hbytes.symm.trans hok
    exact ⟨h64, rfl⟩

/-- The bytes an ASCII-adjust row drives. -/
theorem eq_of_drivesBytes_asciiForm {m : Mode} {body bs : ByteSeq} {s : State}
    (h : DrivesBytes (drive (asciiForm m body) s) s bs) : m ≠ .bit64 ∧ bs = body := by
  have hok := drivesBytes_drive_iff _ _ _ h
  obtain herr | ⟨hm, hbytes⟩ := asciiForm_cases m body
  · cases herr.symm.trans hok
  · cases hbytes.symm.trans hok
    exact ⟨hm, rfl⟩

/-- The bytes of a row of ADC or ADD are read from its opcode, at its operand size. -/
theorem decodeBytes_aluForm {p : Params} {c : SizeClass} {m : Mode} {op : Byte} {tail bs : ByteSeq} {s : State}
    (rest : ByteSeq) (hp : p.wf = true) (hop : op ∈ aluOpcodes)
    (h : DrivesBytes (drive (aluForm p c m (op :: tail)) s) s bs) :
    decodeBytes p m (bs ++ rest) = decodeOpcode m (rowOpsize p m c) (op :: (tail ++ rest)) := by
  obtain ⟨h64, rfl⟩ := eq_of_drivesBytes_aluForm h
  rw [List.append_assoc]
  exact decodeBytes_prefixPart p c m op (tail ++ rest) hp h64 (List.mem_append_left _ hop)

/-- A group 1 row of a full-width immediate is read from its group opcode. -/
theorem decodeBytes_group {p : Params} {c : SizeClass} {m : Mode} {short op base : Byte} {r : BitVec 3}
    {imm bs : ByteSeq} {s : State} (rest : ByteSeq) (hp : p.wf = true) (hop : op ∈ aluOpcodes)
    (hr : decide (r ≠ 0) = true) (h : DrivesBytes (drive (aluForm p c m (grpFullBody short op base r imm)) s) s bs) :
    decodeBytes p m (bs ++ rest) = decodeOpcode m (rowOpsize p m c) (op :: grpByte base r :: (imm ++ rest)) :=
  decodeBytes_aluForm rest hp hop ((drivesBytes_group_iff _ _ _ _ _ _ _ _ _ _ (of_decide_eq_true hr)).1 h)

/-- The bytes of an ASCII-adjust row are read from its opcode. -/
theorem decodeBytes_asciiForm {p : Params} {m : Mode} {op : Byte} {tail bs : ByteSeq} {s : State} (rest : ByteSeq)
    (hop : op ∈ asciiOpcodes) (h : DrivesBytes (drive (asciiForm m (op :: tail)) s) s bs) :
    m ≠ .bit64 ∧ decodeBytes p m (bs ++ rest) = decodeOpcode m (p.defaultOpsize m) (op :: (tail ++ rest)) := by
  obtain ⟨hm, rfl⟩ := eq_of_drivesBytes_asciiForm h
  exact ⟨hm, decodeBytes_opcode p m op (tail ++ rest) (List.mem_append_right _ hop)⟩

theorem withImm16_leBytes (f : BitVec 16 → Instr) (v : BitVec 16) (rest : ByteSeq) :
    withImm16 f (leBytes 2 v ++ rest) = .ok (f v, rest) :=
  congrArg (fun w => Except.ok (f w, rest)) (fromLe_leBytes 2 16 v (by decide))

theorem withImm32_leBytes (f : BitVec 32 → Instr) (v : BitVec 32) (rest : ByteSeq) :
    withImm32 f (leBytes 4 v ++ rest) = .ok (f v, rest) :=
  congrArg (fun w => Except.ok (f w, rest)) (fromLe_leBytes 4 32 v (by decide))

section ModRM

variable {f : BitVec 3 → BitVec 3 → ByteSeq → Except DecodeError (Instr × ByteSeq)} {bs : ByteSeq}
  {reading : Except DecodeError (Instr × ByteSeq)}

/-- A ModR/M byte with mod = 11 hands on its fields. -/
theorem withModrm_of_fields {b : Byte} {reg rm : BitVec 3}
    (hb : b.extractLsb' 6 2 = 3 ∧ b.extractLsb' 3 3 = reg ∧ b.extractLsb' 0 3 = rm) (h : f reg rm bs = reading) :
    withModrm f (b :: bs) = reading := by
  obtain ⟨hmod, rfl, rfl⟩ := hb
  exact (if_pos hmod).trans h

theorem withModrm_add {r : BitVec 3} (h : f 0 r bs = reading) : withModrm f (grpByte 0xC0 r :: bs) = reading :=
  withModrm_of_fields (grpByte_add_fields r) h

theorem withModrm_adc {r : BitVec 3} (h : f 2 r bs = reading) : withModrm f (grpByte 0xD0 r :: bs) = reading :=
  withModrm_of_fields (grpByte_adc_fields r) h

theorem withModrm_registers {reg rm : BitVec 3} (h : f reg rm bs = reading) :
    withModrm f (rrByte reg rm :: bs) = reading :=
  withModrm_of_fields (rrByte_fields reg rm) h

end ModRM

/-- Settles O45, by the rows of R120: the selector's bytes give the operand size back, ModR/M its fields, and
the immediate's bytes the immediate. -/
theorem emittedBytesDecodeBack : Obligations.EmittedBytesDecodeBack := by
  intro i m s bs rest hp hwf hm hd
  cases i <;> cases hm
  case addAlImm8 | adcAlImm8 =>
    exact decodeBytes_aluForm rest hp (by decide) hd
  case addAxImm16 | adcAxImm16 =>
    exact (decodeBytes_aluForm rest hp (by decide) hd).trans (withImm16_leBytes _ _ rest)
  case addEaxImm32 | addRaxImm32 | adcEaxImm32 | adcRaxImm32 =>
    exact (decodeBytes_aluForm rest hp (by decide) hd).trans (withImm32_leBytes _ _ rest)
  case addR8Imm8 =>
    exact (decodeBytes_group rest hp (by decide) hwf hd).trans (withModrm_add rfl)
  case adcR8Imm8 =>
    exact (decodeBytes_group rest hp (by decide) hwf hd).trans (withModrm_adc rfl)
  case addR16Imm16 =>
    exact (decodeBytes_group rest hp (by decide) hwf hd).trans
      (withModrm_add (withImm16_leBytes _ _ rest))
  case adcR16Imm16 =>
    exact (decodeBytes_group rest hp (by decide) hwf hd).trans
      (withModrm_adc (withImm16_leBytes _ _ rest))
  case addR32Imm32 | addR64Imm32 =>
    exact (decodeBytes_group rest hp (by decide) hwf hd).trans
      (withModrm_add (withImm32_leBytes _ _ rest))
  case adcR32Imm32 | adcR64Imm32 =>
    exact (decodeBytes_group rest hp (by decide) hwf hd).trans
      (withModrm_adc (withImm32_leBytes _ _ rest))
  case addR16Imm8sx | addR32Imm8sx | addR64Imm8sx =>
    exact (decodeBytes_aluForm rest hp (by decide) hd).trans (withModrm_add rfl)
  case adcR16Imm8sx | adcR32Imm8sx | adcR64Imm8sx =>
    exact (decodeBytes_aluForm rest hp (by decide) hd).trans (withModrm_adc rfl)
  case addRm8R8 | addRm16R16 | addRm32R32 | addRm64R64 | addR8Rm8 | addR16Rm16 | addR32Rm32 | addR64Rm64 | adcRm8R8 |
      adcRm16R16 | adcRm32R32 | adcRm64R64 | adcR8Rm8 | adcR16Rm16 | adcR32Rm32 | adcR64Rm64 =>
    have hread := decodeBytes_aluForm rest hp (by decide) hd
    dsimp only [decodeOpcode] at hread
    exact hread.trans (withModrm_registers rfl)
  case aaa | aas | aadImm8 | aamImm8 =>
    obtain ⟨hm, hread⟩ := decodeBytes_asciiForm rest (by decide) hd
    exact hread.trans (if_neg hm)

/-! ### A caller's prefixes (R111, R243, R245) -/

/-- Only OPSIZE has the byte 0x66 (R68). -/
theorem byte_ne_of_ne_opsize (k : PrefixKind) (h : k ≠ .opsize) : (k.byte == 0x66) = false := by
  revert h
  cases k <;> decide

/-- The decoder skips a caller's prefixes, and none of them but 0x66 leaves a trace (R119). -/
theorem skipLegacy_kinds (ks : List PrefixKind) (bs : ByteSeq) (h : .opsize ∉ ks) :
    skipLegacy (ks.map PrefixKind.byte ++ bs) = skipLegacy bs := by
  induction ks with
  | nil => rfl
  | cons k ks ih =>
    obtain ⟨hk, hks⟩ := not_or.1 (mt List.mem_cons.2 h)
    rw [List.map_cons, List.cons_append, skipLegacy_byte, ih hks, byte_ne_of_ne_opsize k (Ne.symm hk), Bool.false_or]

theorem decodeBytes_kinds (p : Params) (m : Mode) (ks : List PrefixKind) (bs : ByteSeq) (h : .opsize ∉ ks) :
    decodeBytes p m (ks.map PrefixKind.byte ++ bs) = decodeBytes p m bs := by
  rw [decodeBytes, skipLegacy_kinds ks bs h, decodeBytes]

/-- Settles O46: the caller's prefixes are the kinds' bytes, which are skipped; what follows reads back by O45. -/
theorem callerPrefixesKeepTheInstruction : Obligations.CallerPrefixesKeepTheInstruction := by
  intro i m s ks pre bs rest hp hwf hm hlen hslots hks hpre hd
  have hcount : (BitVec.ofNat 3 ks.length).toNat = ks.length := by
    rw [BitVec.toNat_ofNat]
    omega
  have hok := drivesBytes_drive_iff _ _ _ hpre
  rw [lpfxEmit_kinds s.params _ ks hcount hslots] at hok
  cases hok
  rw [List.append_assoc, decodeBytes_kinds s.params m ks (bs ++ rest) hks]
  exact emittedBytesDecodeBack i m s bs rest hp hwf hm hd

/-! ### ENCODE and the rows (R260–R275) -/

/-- ENCODE past its port codes: the family of the mnemonic on the operands in use (R260). -/
def familyResult (p : Params) (k : Mnemonic) (ops : List Operand) (se : SignExtend) (dir : Direction) (m : Mode) :
    Result :=
  match k with
  | .adc | .add => alu p k ops se dir m
  | .aaa | .aas | .aad | .aam => ascii k ops m

theorem encodeResult_eq_familyResult (p : Params) (m : Mode) (k : Mnemonic) (n : BitVec 2) (o0 o1 : Operand)
    (se : SignExtend) (dir : Direction) (ops : List Operand) (h : usedOperands n o0 o1 = some ops) :
    encodeResult p m.code k.code n o0 o1 se dir = familyResult p k ops se dir m := by
  rw [encodeResult_of_used p m k n o0 o1 se dir ops h]
  cases k <;> rfl

/-- The ModR/M byte of group 1 with register code 0, whose reg field is the mnemonic's number (R120). -/
def groupBase : Mnemonic → Byte
  | .adc => 0xD0
  | _ => 0xC0

theorem modrm_group (k : Mnemonic) (r : BitVec 3) (hk : k = .adc ∨ k = .add) :
    modrm [true, true] (aluNum k) (bitsOf r) = grpByte (groupBase k) r := by
  rcases hk with rfl | rfl
  · exact modrm_adc r
  · exact modrm_add r

theorem opGrp1_of_full {w iw : SizeClass} {se : SignExtend} (h : riKind w iw se = some .full) :
    opGrp1 (sField w iw se) (wBit w) = if w = .w8 then 0x80 else 0x81 := by
  revert h
  cases w <;> cases iw <;> cases se <;> decide

theorem opGrp1_of_sext8 {w iw : SizeClass} {se : SignExtend} (h : riKind w iw se = some .sext8) :
    opGrp1 (sField w iw se) (wBit w) = 0x83 := by
  revert h
  cases w <;> cases iw <;> cases se <;> decide

/-- A full-width immediate: the accumulator's short form or group 1, as `grpFullBody` has it (R267). -/
theorem alu_full (p : Params) (k : Mnemonic) (d : Gpr) (v : Sized) (se : SignExtend) (dir : Direction) (m : Mode)
    (hk : k = .adc ∨ k = .add) (hkind : riKind d.cls v.cls se = some .full) :
    alu p k [.reg d, .imm v] se dir m =
      aluForm p d.cls m (grpFullBody ((if k = .adc then 0x14 else 0x04) + if d.cls = .w8 then 0 else 1)
        (if d.cls = .w8 then 0x80 else 0x81) (groupBase k) d.code v.leBytes) := by
  rw [alu_register_immediate, aluForm_eq, riEncode, hkind, opGrp1_of_full hkind, opAcc_eq k d.cls hk]
  by_cases hr : d.code = 0#3
  · simp [hr, grpFullBody]
  · simp [hr, grpFullBody, modrm_group k d.code hk]

/-- A sign-extended imm8: group 1, for every register (R267). -/
theorem alu_sext8 (p : Params) (k : Mnemonic) (d : Gpr) (v : Sized) (se : SignExtend) (dir : Direction) (m : Mode)
    (hk : k = .adc ∨ k = .add) (hkind : riKind d.cls v.cls se = some .sext8) :
    alu p k [.reg d, .imm v] se dir m = aluForm p d.cls m (0x83 :: grpByte (groupBase k) d.code :: v.leBytes) := by
  rw [alu_register_immediate, aluForm_eq, riEncode, hkind, opGrp1_of_sext8 hkind]
  simp [modrm_group k d.code hk]

/-- Two registers of one width; the direction says which of them the reg field holds (R270, R271). -/
theorem alu_registers (p : Params) (k : Mnemonic) (d r : Gpr) (se : SignExtend) (dir : Direction) (m : Mode)
    (hk : k = .adc ∨ k = .add) (hcls : d.cls = r.cls) :
    alu p k [.reg d, .reg r] se dir m =
      aluForm p d.cls m
        [(if k = .adc then 0x10 else 0x00) + (if dir = .toReg then 2 else 0) + if d.cls = .w8 then 0 else 1,
          if dir = .toRM then rrByte r.code d.code else rrByte d.code r.code] := by
  rw [alu_register_register, aluForm_eq, rrEncode, ← hcls, opAluRr_eq k dir d.cls hk]
  cases dir <;> simp [modrm_registers]

/-- The accumulator's row and the group 1 row it shortens are one row body (R267). -/
theorem exec_short_or_group (r : BitVec 3) (short group : Instr) (s : State) (o : Out)
    (hshort : r = 0 → exec short s = o) (hgroup : exec group s = o) : exec (if r = 0 then short else group) s = o := by
  split
  · exact hshort ‹_›
  · exact hgroup

theorem exec_of_addImmForm {m : Mode} {d : Gpr} {v : Sized} {se : SignExtend} {i : Instr} (dir : Direction) (s : State)
    (h : addImmForm m d v se = some i) : exec i s = drive (alu s.params .add [.reg d, .imm v] se dir m) s := by
  obtain ⟨r, c⟩ := d
  unfold addImmForm at h
  split at h <;> cases h <;> rename_i hc <;> cases hc
  case h_1 | h_2 | h_3 | h_4 =>
    rw [alu_full _ _ _ _ _ _ _ (.inr rfl) rfl]
    exact exec_short_or_group r _ _ s _ (by rintro rfl; rfl) rfl
  all_goals
    rw [alu_sext8 _ _ _ _ _ _ _ (.inr rfl) rfl]
    rfl

theorem exec_of_adcImmForm {m : Mode} {d : Gpr} {v : Sized} {se : SignExtend} {i : Instr} (dir : Direction) (s : State)
    (h : adcImmForm m d v se = some i) : exec i s = drive (alu s.params .adc [.reg d, .imm v] se dir m) s := by
  obtain ⟨r, c⟩ := d
  unfold adcImmForm at h
  split at h <;> cases h <;> rename_i hc <;> cases hc
  case h_1 | h_2 | h_3 | h_4 =>
    rw [alu_full _ _ _ _ _ _ _ (.inl rfl) rfl]
    exact exec_short_or_group r _ _ s _ (by rintro rfl; rfl) rfl
  all_goals
    rw [alu_sext8 _ _ _ _ _ _ _ (.inl rfl) rfl]
    rfl

theorem exec_of_addRegForm {m : Mode} {d r : Gpr} {dir : Direction} {i : Instr} (se : SignExtend) (s : State)
    (h : addRegForm m d r dir = some i) : exec i s = drive (alu s.params .add [.reg d, .reg r] se dir m) s := by
  unfold addRegForm at h
  split at h
  · cases h
  · rename_i hcls
    rw [alu_registers _ _ _ _ _ _ _ (.inr rfl) (Classical.not_not.1 hcls)]
    obtain ⟨dst, c⟩ := d
    split at h <;> cases h <;> rename_i hc <;> cases hc <;> rfl

theorem exec_of_adcRegForm {m : Mode} {d r : Gpr} {dir : Direction} {i : Instr} (se : SignExtend) (s : State)
    (h : adcRegForm m d r dir = some i) : exec i s = drive (alu s.params .adc [.reg d, .reg r] se dir m) s := by
  unfold adcRegForm at h
  split at h
  · cases h
  · rename_i hcls
    rw [alu_registers _ _ _ _ _ _ _ (.inl rfl) (Classical.not_not.1 hcls)]
    obtain ⟨dst, c⟩ := d
    split at h <;> cases h <;> rename_i hc <;> cases hc <;> rfl

/-- The row that operands name does what the mnemonic's family does with them. -/
theorem exec_of_formOfOperands {k : Mnemonic} {m : Mode} {ops : List Operand} {se : SignExtend} {dir : Direction}
    {i : Instr} (s : State) (h : formOfOperands k m ops se dir = some i) :
    exec i s = drive (familyResult s.params k ops se dir m) s := by
  unfold formOfOperands at h
  split at h
  case h_1 => exact exec_of_addImmForm dir s h
  case h_2 => exact exec_of_adcImmForm dir s h
  case h_3 => exact exec_of_addRegForm se s h
  case h_4 => exact exec_of_adcRegForm se s h
  all_goals cases h
  all_goals rfl

/-- ENCODE of ports that name a row is that row. -/
theorem exec_encode_of_formOf {mode : BitVec 3} {mn : BitVec 8} {n : BitVec 2} {o0 o1 : Operand} {se : SignExtend}
    {dir : Direction} {i : Instr} (s : State) (h : formOf mode mn n o0 o1 se dir = some i) :
    exec (.encode mode mn n o0 o1 se dir) s = exec i s := by
  obtain ⟨m, k, ops, rfl, rfl, hops, hform⟩ := formOf_eq_some _ _ _ _ _ _ _ _ h
  calc exec (.encode m.code k.code n o0 o1 se dir) s
      = drive (encodeResult s.params m.code k.code n o0 o1 se dir) s := rfl
    _ = drive (familyResult s.params k ops se dir m) s := by
        rw [encodeResult_eq_familyResult s.params m k n o0 o1 se dir ops hops]
    _ = exec i s := (exec_of_formOfOperands s hform).symm

/-- Settles O41: the row that the ports name drives the algorithm's bytes, and ports that name none are ENCODE's. -/
theorem encodeAgreesWithItsRow : Obligations.EncodeAgreesWithItsRow := by
  refine ⟨fun mode mn n o0 o1 se dir i h s => exec_encode_of_formOf s h, fun s hop => ?_⟩
  rw [step_of_decode_ok s _ (decodeRequest_of_op_encode s.inp hop), decodeEncode]
  cases hform : formOf s.inp.mode s.inp.mn s.inp.nopnd s.inp.opnd0 s.inp.opnd1 s.inp.se s.inp.dir with
  | none => rfl
  | some i => exact (exec_encode_of_formOf s hform).symm

/-! ### ENCODE where its ports name no row (R265, R266, R272, R275) -/

/-- A register and an immediate name a form exactly for the widths of R265. -/
theorem isSome_formOfOperands_immediate (k : Mnemonic) (m : Mode) (d : Gpr) (v : Sized) (se : SignExtend)
    (dir : Direction) (hk : k = .adc ∨ k = .add) :
    (formOfOperands k m [.reg d, .imm v] se dir).isSome = (riKind d.cls v.cls se).isSome := by
  obtain ⟨r, c⟩ := d
  rcases hk with rfl | rfl
  · cases c <;> cases v <;> cases se <;> rfl
  · cases c <;> cases v <;> cases se <;> rfl

/-- Two registers of one width name a form. -/
theorem isSome_formOfOperands_registers (k : Mnemonic) (m : Mode) (c : SizeClass) (dst src : BitVec 3)
    (se : SignExtend) (dir : Direction) (hk : k = .adc ∨ k = .add) :
    (formOfOperands k m [.reg ⟨dst, c⟩, .reg ⟨src, c⟩] se dir).isSome = true := by
  rcases hk with rfl | rfl
  · cases c <;> cases dir <;> rfl
  · cases c <;> cases dir <;> rfl

theorem riKind_of_no_form {k : Mnemonic} {m : Mode} {d : Gpr} {v : Sized} {se : SignExtend} {dir : Direction}
    (hk : k = .adc ∨ k = .add) (h : formOfOperands k m [.reg d, .imm v] se dir = none) :
    riKind d.cls v.cls se = none := by
  simpa [h] using isSome_formOfOperands_immediate k m d v se dir hk

theorem cls_ne_of_no_form {k : Mnemonic} {m : Mode} {d r : Gpr} {se : SignExtend} {dir : Direction}
    (hk : k = .adc ∨ k = .add) (h : formOfOperands k m [.reg d, .reg r] se dir = none) : d.cls ≠ r.cls := by
  obtain ⟨dst, c⟩ := d
  obtain ⟨src, c'⟩ := r
  rintro rfl
  simpa [h] using isSome_formOfOperands_registers k m c dst src se dir hk

theorem shapeOf_eq_ri {ops : List Operand} {d : Gpr} {v : Sized} (h : shapeOf ops = .ri d v) :
    ops = [.reg d, .imm v] := by
  unfold shapeOf at h
  split at h
  · cases h
  · split at h <;> cases h
    rfl

theorem shapeOf_eq_rr {ops : List Operand} {d r : Gpr} (h : shapeOf ops = .rr d r) : ops = [.reg d, .reg r] := by
  unfold shapeOf at h
  split at h
  · cases h
  · split at h <;> cases h
    rfl

/-- ADC and ADD of operands that name no form: an error, at the latest for their widths. -/
theorem alu_of_no_form {k : Mnemonic} {m : Mode} {ops : List Operand} {se : SignExtend} {dir : Direction} (p : Params)
    (hk : k = .adc ∨ k = .add) (h : formOfOperands k m ops se dir = none) : ∃ e, alu p k ops se dir m = .err e := by
  unfold alu
  split
  · exact ⟨_, rfl⟩
  · split
    · exact ⟨_, rfl⟩
    · exact ⟨_, rfl⟩
    · obtain rfl := shapeOf_eq_ri ‹_›
      rw [riEncode, riKind_of_no_form hk h]
      exact ⟨_, rfl⟩
    · obtain rfl := shapeOf_eq_rr ‹_›
      rw [rrEncode, if_pos (cls_ne_of_no_form hk h)]
      exact ⟨_, rfl⟩

/-- An ASCII-adjust mnemonic over operands that name no form: an error, at the latest for the operands. -/
theorem ascii_of_no_form {k : Mnemonic} {m : Mode} {ops : List Operand} {se : SignExtend} {dir : Direction}
    (h : formOfOperands k m ops se dir = none) : ∃ e, ascii k ops m = .err e := by
  unfold ascii
  split
  · exact ⟨_, rfl⟩
  · cases k with
    | adc | add => exact ⟨_, rfl⟩
    | aaa | aas =>
      cases ops with
      | nil => cases h
      | cons o os => exact ⟨_, rfl⟩
    | aad =>
      dsimp only
      unfold aad
      split
      · cases h
      · cases h
      · exact ⟨_, rfl⟩
    | aam =>
      dsimp only
      unfold aam
      split
      · cases h
      · cases h
      · exact ⟨_, rfl⟩

theorem familyResult_of_no_form {k : Mnemonic} {m : Mode} {ops : List Operand} {se : SignExtend} {dir : Direction}
    (p : Params) (h : formOfOperands k m ops se dir = none) : ∃ e, familyResult p k ops se dir m = .err e := by
  cases k with
  | adc => exact alu_of_no_form p (.inl rfl) h
  | add => exact alu_of_no_form p (.inr rfl) h
  | aaa | aas | aad | aam => exact ascii_of_no_form h

/-- ENCODE of ports that name no row is an error (R275). -/
theorem encodeResult_of_no_form {mode : BitVec 3} {mn : BitVec 8} {n : BitVec 2} {o0 o1 : Operand} {se : SignExtend}
    {dir : Direction} (p : Params) (h : formOf mode mn n o0 o1 se dir = none) :
    ∃ e, encodeResult p mode mn n o0 o1 se dir = .err e := by
  cases hm : Mode.ofCode mode with
  | none => exact ⟨.unsupported, by rw [encodeResult, hm]⟩
  | some m =>
    cases hops : usedOperands n o0 o1 with
    | none => exact ⟨.unsupported, by rw [encodeResult, hm, hops]⟩
    | some ops =>
      cases hk : Mnemonic.ofCode mn with
      | none => exact ⟨.notYetSupported, by rw [encodeResult, hm, hops, hk]⟩
      | some k =>
        obtain rfl := Mode.eq_code_of_ofCode mode m hm
        obtain rfl := Mnemonic.eq_code_of_ofCode mn k hk
        rw [encodeResult_eq_familyResult p m k n o0 o1 se dir ops hops]
        exact familyResult_of_no_form p ((formOf_of_used m k n o0 o1 se dir ops hops).symm.trans h)

/-! ### The patterns a row emits (R120, R131, R275) -/

/-- The answers of a row in mode `m`: ModeViolation, or at most one byte of the selector's, the row's opcode and at
most five bytes more. -/
def IsRowResult (m : Mode) (r : Result) : Prop :=
  r = .err .modeViolation ∨
    ∃ pre op tail, r = .ok (.bytes (pre ++ op :: tail)) ∧ (pre = [] ∨ pre = [0x66] ∨ (pre = [0x48] ∧ m = .bit64)) ∧
      op ∈ aluOpcodes ++ asciiOpcodes ∧ (m = .bit64 → op ∉ asciiOpcodes) ∧ tail.length ≤ 5

/-- The selector gives nothing, 0x66 or the one REX byte (R248). -/
theorem prefixPart_cases (p : Params) (c : SizeClass) (m : Mode) (h64 : c = .w64 → m = .bit64) :
    prefixPart p c m = [] ∨ prefixPart p c m = [0x66] ∨ (prefixPart p c m = [0x48] ∧ m = .bit64) := by
  rw [prefixPart_eq]
  cases c with
  | w8 => exact .inl rfl
  | w16 | w32 => dsimp only; split <;> simp
  | w64 => exact .inr (.inr ⟨rfl, h64 rfl⟩)

theorem isRowResult_aluForm (p : Params) (c : SizeClass) (m : Mode) (op : Byte) (tail : ByteSeq)
    (hop : op ∈ aluOpcodes) (hlen : tail.length ≤ 5) : IsRowResult m (aluForm p c m (op :: tail)) := by
  obtain herr | ⟨h64, hbytes⟩ := aluForm_cases p c m (op :: tail)
  · exact .inl herr
  · exact .inr ⟨_, op, tail, hbytes, prefixPart_cases p c m h64, List.mem_append_left _ hop,
      fun _ => not_mem_asciiOpcodes op hop, hlen⟩

theorem isRowResult_group (p : Params) (c : SizeClass) (m : Mode) (short op base : Byte) (r : BitVec 3)
    (imm : ByteSeq) (hshort : short ∈ aluOpcodes) (hop : op ∈ aluOpcodes) (hlen : imm.length ≤ 4) :
    IsRowResult m (aluForm p c m (grpFullBody short op base r imm)) := by
  unfold grpFullBody
  split
  · exact isRowResult_aluForm p c m short imm hshort (by omega)
  · exact isRowResult_aluForm p c m op _ hop (by rw [List.length_cons]; omega)

theorem isRowResult_asciiForm (m : Mode) (op : Byte) (tail : ByteSeq) (hop : op ∈ asciiOpcodes)
    (hlen : tail.length ≤ 5) : IsRowResult m (asciiForm m (op :: tail)) := by
  obtain herr | ⟨hm, hbytes⟩ := asciiForm_cases m (op :: tail)
  · exact .inl herr
  · exact .inr ⟨[], op, tail, hbytes, .inl rfl, List.mem_append_right _ hop, fun h => absurd h hm, hlen⟩

/-- Every row of R120 answers as a row of its mode may. -/
theorem exec_isRowResult (i : Instr) (m : Mode) (s : State) (h : i.formMode = some m) :
    ∃ r, IsRowResult m r ∧ exec i s = drive r s := by
  cases i <;> cases h
  case addR8Imm8 | addR16Imm16 | addR32Imm32 | addR64Imm32 | adcR8Imm8 | adcR16Imm16 | adcR32Imm32 | adcR64Imm32 =>
    exact ⟨_, isRowResult_group _ _ _ _ _ _ _ _ (by decide) (by decide) (by simp), rfl⟩
  case aaa | aas | aadImm8 | aamImm8 => exact ⟨_, isRowResult_asciiForm _ _ _ (by decide) (by simp), rfl⟩
  all_goals exact ⟨_, isRowResult_aluForm _ _ _ _ _ (by decide) (by simp), rfl⟩

theorem formMode_short_or_group (m : Mode) (r : BitVec 3) (short group : Instr) (hshort : short.formMode = some m)
    (hgroup : group.formMode = some m) : (if r = 0 then short else group).formMode = some m := by
  split
  · exact hshort
  · exact hgroup

/-- The row that operands name in a mode is a row of that mode. -/
theorem formMode_of_formOfOperands {k : Mnemonic} {m : Mode} {ops : List Operand} {se : SignExtend} {dir : Direction}
    {i : Instr} (h : formOfOperands k m ops se dir = some i) : i.formMode = some m := by
  unfold formOfOperands at h
  split at h
  case h_1 =>
    unfold addImmForm at h
    split at h <;> cases h
    case h_1 | h_2 | h_3 | h_4 => exact formMode_short_or_group m _ _ _ rfl rfl
    all_goals rfl
  case h_2 =>
    unfold adcImmForm at h
    split at h <;> cases h
    case h_1 | h_2 | h_3 | h_4 => exact formMode_short_or_group m _ _ _ rfl rfl
    all_goals rfl
  case h_3 =>
    unfold addRegForm at h
    split at h
    · cases h
    · split at h <;> cases h <;> rfl
  case h_4 =>
    unfold adcRegForm at h
    split at h
    · cases h
    · split at h <;> cases h <;> rfl
  all_goals cases h
  all_goals rfl

/-- All that ENCODE can answer: an error where its ports name no row, else what the row answers in its mode. -/
theorem exec_encode_cases (mode : BitVec 3) (mn : BitVec 8) (n : BitVec 2) (o0 o1 : Operand) (se : SignExtend)
    (dir : Direction) (s : State) :
    (∃ e, exec (.encode mode mn n o0 o1 se dir) s = drive (.err e) s) ∨
      ∃ i m r, formOf mode mn n o0 o1 se dir = some i ∧ i.formMode = some m ∧ mode = m.code ∧ IsRowResult m r ∧
        exec (.encode mode mn n o0 o1 se dir) s = drive r s ∧ exec i s = drive r s := by
  cases hform : formOf mode mn n o0 o1 se dir with
  | none =>
    obtain ⟨e, he⟩ := encodeResult_of_no_form s.params hform
    exact .inl ⟨e, congrArg (drive · s) he⟩
  | some i =>
    obtain ⟨m, k, ops, hmode, -, -, hops⟩ := formOf_eq_some _ _ _ _ _ _ _ _ hform
    have hm := formMode_of_formOfOperands hops
    obtain ⟨r, hrow, hexec⟩ := exec_isRowResult i m s hm
    exact .inr ⟨i, m, r, rfl, hm, hmode, hrow, (exec_encode_of_formOf s hform).trans hexec, hexec⟩

/-- Settles O42: where ENCODE succeeds its ports name a row, whose result it drives. -/
theorem encodeSucceedsOnlyOnRows : Obligations.EncodeSucceedsOnlyOnRows := by
  intro mode mn n o0 o1 se dir s
  obtain ⟨e, he⟩ | ⟨i, m, r, hform, hm, -, hrow, hencode, hexec⟩ := exec_encode_cases mode mn n o0 o1 se dir s
  · exact .inl ⟨e, he ▸ drivesError_drive e s⟩
  · obtain rfl | ⟨pre, op, tail, rfl, hpre, -, -, hlen⟩ := hrow
    · exact .inl ⟨.modeViolation, hencode ▸ drivesError_drive .modeViolation s⟩
    · have hbytes : DrivesBytes (drive (.ok (.bytes (pre ++ op :: tail))) s) s (pre ++ op :: tail) := by
        refine drivesBytes_drive _ s ?_
        rcases hpre with rfl | rfl | ⟨rfl, -⟩ <;> simp <;> omega
      exact .inr ⟨i, m, _, hform, hm, hencode ▸ hbytes, hexec ▸ hbytes⟩

theorem mem_of_mem_opcodes (op : Byte) (h : op ∈ aluOpcodes ++ asciiOpcodes) :
    op ∈ ([0x00, 0x01, 0x02, 0x03, 0x04, 0x05, 0x10, 0x11, 0x12, 0x13, 0x14, 0x15, 0x37, 0x3F, 0x80, 0x81, 0x83,
      0xD4, 0xD5] : List Byte) := by
  revert op
  decide

theorem mode_code_eq_four_iff (m : Mode) : m.code = 4 ↔ m = .bit64 := by
  cases m <;> decide

/-- Settles O44: a byte result of ENCODE is a row's, and the rows emit the admitted patterns only. -/
theorem encodeEmitsOnlyAdmittedPatterns : Obligations.EncodeEmitsOnlyAdmittedPatterns := by
  intro mode mn n o0 o1 se dir s t bs hstep hbs
  obtain ⟨e, he⟩ | ⟨i, m, r, -, -, rfl, hrow, hencode, -⟩ := exec_encode_cases mode mn n o0 o1 se dir s
  · rw [he, drive_eq_next] at hstep
    subst hstep
    cases hbs
  · rw [hencode, drive_eq_next] at hstep
    subst hstep
    rw [mode_code_eq_four_iff]
    obtain rfl | ⟨pre, op, tail, rfl, hpre, hop, hascii, -⟩ := hrow <;> cases hbs
    exact ⟨pre, op, tail, rfl, hpre, mem_of_mem_opcodes op hop, hascii⟩

end Sys2Proof.Machine
end

section
/-! PROOFS. Bit and byte primitives (40_bit_primitives.md): the sum a byte sequence deserialises to, and what the bit
operations do to each digit of a byte. -/

namespace Sys2Proof

/-! ### The digits of a byte (R11, R169–R173) -/

theorem BitOrder.bitOf_eq_ite (o : BitOrder) (d : Nat) : o.bitOf d = if o = .lsbFirst then d else 7 - d := by
  cases o <;> rfl

theorem bitAt_eq_putBit_zero (v : Bool) (p : Nat) : bitAt v p = putBit 0 p v := by
  simp [putBit]

/-- Reading back a digit of a byte one of whose digits was replaced. -/
theorem getLsbD_putBit_bitOf (o : BitOrder) (t : Byte) (d k : Nat) (v : Bool) (hd : d < 8) (hk : k < 8) :
    (putBit t (o.bitOf d) v).getLsbD (o.bitOf k) = if k = d then v else t.getLsbD (o.bitOf k) := by
  rw [getLsbD_putBit t _ v _ (o.bitOf_lt k hk) (o.bitOf_lt d hd)]
  simp only [o.bitOf_inj k d hk hd]

/-- Elements packed from digit `i` up: each lies at its own digit, and the digits below `i` are 0 (R172). -/
theorem getLsbD_packFrom (o : BitOrder) (bs : BitSeq) (i k : Nat) (hi : i + bs.length ≤ 8) (hk : k < 8) :
    (packFrom o i bs).getLsbD (o.bitOf k) = if i ≤ k then bs.getD (k - i) false else false := by
  induction bs generalizing i with
  | nil => simp [packFrom]
  | cons v vs ih =>
    rw [List.length_cons] at hi
    rw [packFrom, BitVec.getLsbD_or, bitAt_eq_putBit_zero, getLsbD_putBit_bitOf o 0 i k v (by omega) hk,
      ih (i + 1) (by omega)]
    rcases Nat.lt_trichotomy k i with hlt | rfl | hgt
    · rw [if_neg (by omega), if_neg (by omega), if_neg (by omega)]
      simp
    · simp
    · rw [if_neg (by omega), if_pos (by omega), if_pos (by omega), show k - i = k - (i + 1) + 1 by omega,
        List.getD_cons_succ]
      simp

/-- Digit `i` of the byte that eight elements pack to is element `i` (R172). -/
theorem getLsbD_packBits (o : BitOrder) (bs : BitSeq) (hbs : bs.length = 8) (i : Nat) (hi : i < 8) :
    some ((packBits o bs).getLsbD (o.bitOf i)) = bs[i]? := by
  rw [packBits, getLsbD_packFrom o bs 0 i (by omega) hi]
  simp [hbs, hi]

/-- Unpacking undoes packing in the same order (R172, R173). -/
theorem unpackBits_packBits (o : BitOrder) (bs : BitSeq) (hbs : bs.length = 8) : unpackBits o (packBits o bs) = bs := by
  refine List.ext_getElem? fun i => ?_
  rcases Nat.lt_or_ge i 8 with hlt | hge
  · rw [← getLsbD_packBits o bs hbs i hlt]
    simp [unpackBits, hlt]
  · rw [List.getElem?_eq_none (by simpa [unpackBits] using hge), List.getElem?_eq_none (by omega)]

/-! ### The sum of the shifted bytes (R160) -/

/-- Where the width holds the bytes, they deserialise to the number whose base 256 digits they are. -/
theorem toNat_fromLe (n : Nat) (bs : ByteSeq) (hn : 8 * bs.length ≤ n) :
    (fromLe n bs).toNat = Nat.ofDigits 256 (bs.map BitVec.toNat) := by
  induction bs with
  | nil => simp [fromLe]
  | cons b bs ih =>
    rw [List.length_cons] at hn
    have htail := ih (by omega)
    have hlt : (fromLe n bs).toNat < 2 ^ (n - 8) := by
      calc (fromLe n bs).toNat = Nat.ofDigits 256 (bs.map BitVec.toNat) := htail
        _ < 256 ^ (bs.map BitVec.toNat).length :=
          Nat.ofDigits_lt_base_pow_length (by decide) fun x hx => by
            obtain ⟨c, -, rfl⟩ := List.mem_map.1 hx
            exact c.isLt
        _ = 2 ^ (8 * bs.length) := by rw [List.length_map, Nat.pow_mul]
        _ ≤ 2 ^ (n - 8) := Nat.pow_le_pow_right (by decide) (by omega)
    rw [toNat_fromLe_cons n b bs (by omega) hlt, htail, List.map_cons, Nat.ofDigits_cons]

theorem setWidth_fromLe (m n : Nat) (bs : ByteSeq) (hn : 8 * bs.length ≤ n) :
    (fromLe n bs).setWidth m = BitVec.ofNat m (Nat.ofDigits 256 (bs.map BitVec.toNat)) := by
  rw [← toNat_fromLe n bs hn, BitVec.ofNat_toNat]

namespace Machine

/-! ### The loop of COPYBITS (R171) -/

/-- The loop replaces the digits of the run and keeps the others. -/
theorem getLsbD_copyRun (o : BitOrder) (src : Byte) (sd dd n : Nat) (r : Byte) (hdd : dd + n ≤ 8) (k : Nat)
    (hk : k < 8) :
    (copyRun o src sd dd n r).getLsbD (o.bitOf k) =
      if dd ≤ k ∧ k < dd + n then src.getLsbD (o.bitOf (k - dd + sd)) else r.getLsbD (o.bitOf k) := by
  induction n generalizing sd dd r with
  | zero => rw [copyRun, if_neg (by omega)]
  | succ n ih =>
    rw [copyRun, ih (sd + 1) (dd + 1) _ (by omega), getLsbD_putBit_bitOf o r dd k _ (by omega) hk]
    rcases Nat.lt_trichotomy k dd with hlt | rfl | hgt
    · rw [if_neg (by omega), if_neg (by omega), if_neg (by omega)]
    · simp
    · rw [if_neg (show k ≠ dd by omega), show k - (dd + 1) + (sd + 1) = k - dd + sd by omega]
      simp only [show (dd + 1 ≤ k ∧ k < dd + 1 + n) ↔ (dd ≤ k ∧ k < dd + (n + 1)) by omega]

/-! ### What the bit operations answer (R167–R172) -/

theorem exec_getbit (b : Byte) (d : Int) (o : BitOrder) (s : State) :
    exec (.getbit b d o) s =
      drive (if 0 ≤ d ∧ d ≤ 7 then .ok (.bits [b.getLsbD (o.bitOf d.toNat)]) else .err .outOfRange) s := by
  show drive (getbit b d o) s = _
  simp only [getbit, validDigit, decide_eq_true_eq]

theorem exec_setbit (b : Byte) (d : Int) (v : BitVec 1) (o : BitOrder) (s : State) :
    exec (.setbit b d v o) s =
      drive (if 0 ≤ d ∧ d ≤ 7 then .ok (.bytes [putBit b (o.bitOf d.toNat) (v.getLsbD 0)])
        else .err .outOfRange) s := by
  show drive (setbit b d v o) s = _
  simp only [setbit, validDigit, decide_eq_true_eq]

theorem exec_copybit (src : Byte) (sd : Int) (dst : Byte) (dd : Int) (o : BitOrder) (s : State) :
    exec (.copybit src sd dst dd o) s =
      drive (if (0 ≤ sd ∧ sd ≤ 7) ∧ (0 ≤ dd ∧ dd ≤ 7)
        then .ok (.bytes [putBit dst (o.bitOf dd.toNat) (src.getLsbD (o.bitOf sd.toNat))])
        else .err .outOfRange) s := by
  show drive (copybit src sd dst dd o) s = _
  simp only [copybit, validDigit, decide_eq_true_eq]

theorem exec_copybits (src : Byte) (sd : Int) (dst : Byte) (dd n : Int) (o : BitOrder) (s : State) :
    exec (.copybits src sd dst dd n o) s =
      drive (if 0 ≤ sd ∧ 0 ≤ dd ∧ 1 ≤ n ∧ sd + n ≤ 8 ∧ dd + n ≤ 8
        then .ok (.bytes [copyRun o src sd.toNat dd.toNat n.toNat dst])
        else .err .outOfRange) s := by
  show drive (copybits src sd dst dd n o) s = _
  simp only [copybits, validRun, decide_eq_true_eq]

theorem exec_packbits (bs : BitSeq) (o : BitOrder) (s : State) :
    exec (.packbits bs o) s =
      drive (if bs.length = 8 then .ok (.bytes [packBits o bs]) else .err .invalidArgument) s := rfl

theorem drivesBytes_packbits (bs : BitSeq) (o : BitOrder) (s : State) (hbs : bs.length = 8) :
    DrivesBytes (exec (.packbits bs o) s) s [packBits o bs] := by
  rw [exec_packbits, if_pos hbs]
  exact drivesBytes_drive _ s (by simp)

theorem drivesBits_unpackbits (b : Byte) (o : BitOrder) (s : State) :
    DrivesBits (exec (.unpackbits b o) s) s (unpackBits o b) :=
  drivesBits_drive (unpackBits o b) s (by simp)

/-- The instruction an operation selector gives runs, where the selector's code is known (R101). -/
theorem step_of_op {s : State} {c : BitVec 8} {i : Instr} (hop : s.inp.op = c)
    (hdecode : decodeRequest { s.inp with op := c } = .ok i) : step s = exec i s := by
  subst hop
  exact step_of_decode_ok s i hdecode

/-! ### The obligations -/

/-- Settles O11: the sum is the number whose base 256 digits are the bytes, which is what they deserialise to. -/
theorem deserialiseSumsShiftedBytes : Obligations.DeserialiseSumsShiftedBytes := by
  intro s
  refine ⟨fun b0 b1 => ?_, fun b0 b1 b2 b3 => ?_, fun bs => ?_, fun hop => step_of_op hop rfl,
    fun hop => step_of_op hop rfl, fun hop => step_of_op hop rfl⟩
  · have hdes := drivesWord_leDes16 b0 b1 s
    rw [setWidth_fromLe 64 16 [b0, b1] (by simp)] at hdes
    convert hdes using 2
    simp only [List.map_cons, List.map_nil, Nat.ofDigits_cons, Nat.ofDigits_nil]
    omega
  · have hdes := drivesWord_leDes32 b0 b1 b2 b3 s
    rw [setWidth_fromLe 64 32 [b0, b1, b2, b3] (by simp)] at hdes
    convert hdes using 2
    simp only [List.map_cons, List.map_nil, Nat.ofDigits_cons, Nat.ofDigits_nil]
    omega
  · have hdes := drivesWord_leDes64 bs s
    rw [← BitVec.setWidth_eq (fromLe 64 bs.toList), setWidth_fromLe 64 64 bs.toList (by simp [Bytes8.toList])] at hdes
    convert hdes using 2
    simp only [Bytes8.toList, List.map_cons, List.map_nil, Nat.ofDigits_cons, Nat.ofDigits_nil]
    omega

/-- Settles O14: the byte driven is the old one with the digit's bit replaced. -/
theorem setbitChangesOneBit : Obligations.SetbitChangesOneBit := by
  intro s
  refine ⟨fun b d v o => ⟨fun hd => ?_, fun hd => ?_⟩, fun hop => step_of_op hop rfl⟩
  · rw [exec_setbit, if_pos hd, ← o.bitOf_eq_ite]
    exact ⟨_, drivesBytes_drive _ s (by simp), fun j hj => getLsbD_putBit b _ _ j hj (o.bitOf_lt _ (by omega))⟩
  · rw [exec_setbit, if_neg (by omega)]
    exact drivesError_drive .outOfRange s

/-- Settles O15: the byte driven is the destination with its digit's bit replaced by the source's. -/
theorem copybitChangesOneBit : Obligations.CopybitChangesOneBit := by
  intro s
  refine ⟨fun src sd dst dd o => ⟨fun hd => ?_, fun hd => ?_⟩, fun hop => step_of_op hop rfl⟩
  · rw [exec_copybit, if_pos hd, ← o.bitOf_eq_ite, ← o.bitOf_eq_ite]
    exact ⟨_, drivesBytes_drive _ s (by simp), fun j hj => getLsbD_putBit dst _ _ j hj (o.bitOf_lt _ (by omega))⟩
  · rw [exec_copybit, if_neg (by omega)]
    exact drivesError_drive .outOfRange s

/-- Settles O16: the loop's byte, read digit by digit. -/
theorem copybitsCopiesTheRun : Obligations.CopybitsCopiesTheRun := by
  intro s
  refine ⟨fun src sd dst dd n o => ⟨fun hrun => ?_, fun hrun => ?_⟩, fun hop => step_of_op hop rfl⟩
  · rw [exec_copybits, if_pos hrun]
    exact ⟨_, drivesBytes_drive _ s (by simp), getLsbD_copyRun o src sd.toNat dd.toNat n.toNat dst (by omega)⟩
  · rw [exec_copybits, if_neg hrun]
    exact drivesError_drive .outOfRange s

/-- Settles O17: the byte driven has element `i` at digit `i`. -/
theorem packbitsPlacesEachElement : Obligations.PackbitsPlacesEachElement := by
  intro s
  refine ⟨fun bs o => ⟨fun hbs => ⟨_, drivesBytes_packbits bs o s hbs, fun i hi => ?_⟩, fun hbs => ?_⟩,
    fun hop => step_of_op hop rfl⟩
  · rw [← o.bitOf_eq_ite]
    exact getLsbD_packBits o bs hbs i hi
  · rw [exec_packbits, if_neg hbs]
    exact drivesError_drive .invalidArgument s

/-- Settles O18: the digits are listed in order, and those of a packed byte are the elements it was packed from. -/
theorem unpackbitsUndoesPackbits : Obligations.UnpackbitsUndoesPackbits := by
  intro s
  refine ⟨fun b => drivesBits_unpackbits b .lsbFirst s, fun b => drivesBits_unpackbits b .msbFirst s,
    fun bs o hbs => ⟨_, drivesBytes_packbits bs o s hbs, ?_⟩, fun hop => step_of_op hop rfl⟩
  have hunpack := drivesBits_unpackbits (packBits o bs) o s
  rwa [unpackBits_packBits o bs hbs] at hunpack

/-- Settles O10: the bytes driven are `leBytes` of the word, which lists them from the lowest. -/
theorem serialiseEmitsLowByteFirst : Obligations.SerialiseEmitsLowByteFirst := fun s =>
  ⟨fun w => leBytes_two w ▸ drivesBytes_leSer16 w s, fun w => leBytes_four w ▸ drivesBytes_leSer32 w s,
    fun w => leBytes_eight w ▸ drivesBytes_leSer64 w s, fun hop => step_of_op hop rfl, fun hop => step_of_op hop rfl,
    fun hop => step_of_op hop rfl⟩

/-- Settles O13: the bit driven is the digit's. -/
theorem getbitReadsTheDigit : Obligations.GetbitReadsTheDigit := by
  intro s
  refine ⟨fun b d o => ⟨fun hd => ?_, fun hd => ?_⟩, fun hop => step_of_op hop rfl⟩
  · rw [exec_getbit, if_pos hd, ← o.bitOf_eq_ite]
    exact drivesBits_drive _ s (by simp)
  · rw [exec_getbit, if_neg (by omega)]
    exact drivesError_drive .outOfRange s

end Machine

end Sys2Proof
end

section
/-! PROOFS. Register and field encoders (41_field_encoders.md): which registers have a code, a class and a `w` bit, and
the field bits of the enumerations. -/

namespace Sys2Proof

/-! ### A code's bits, high bit first -/

theorem bitsOf_two (v : BitVec 2) : bitsOf v = [v.getLsbD 1, v.getLsbD 0] := rfl

theorem bitsOf_three (v : BitVec 3) : bitsOf v = [v.getLsbD 2, v.getLsbD 1, v.getLsbD 0] := rfl

theorem bitsOf_four (v : BitVec 4) : bitsOf v = [v.getLsbD 3, v.getLsbD 2, v.getLsbD 1, v.getLsbD 0] := rfl

/-- The two low bits of a segment register's code (R191). -/
theorem bitsOf_setWidth_two (c : BitVec 3) : bitsOf (c.setWidth 2) = [c.getLsbD 1, c.getLsbD 0] := by
  simp [bitsOf_two]

/-- The size classes are numbered in order of width (R47). -/
theorem bitsOf_sizeClass_code (c : SizeClass) :
    bitsOf c.code = [decide (c = .w32 ∨ c = .w64), decide (c = .w16 ∨ c = .w64)] := by
  cases c <;> rfl

namespace Machine

/-! ### The field bits, in numbers -/

theorem wBit_eq_decide (c : SizeClass) : wBit c = [decide (c ≠ .w8)] := by
  cases c <;> rfl

theorem sBit_eq_decide (se : SignExtend) (c : SizeClass) : sBit se c = [decide (se = .signExtend ∧ c = .w8)] := by
  unfold sBit; split <;> simp_all

theorem dBit_eq_decide (dir : Direction) : dBit dir = [decide (dir = .toReg)] := by
  cases dir <;> rfl

/-! ### What each encoder drives -/

/-- A code whose bits `len` can count lies on the ports as its bits (R51). -/
theorem drivesBits_drive_bitsOf {n : Nat} (v : BitVec n) (s : State) (h : n ≤ 15) :
    DrivesBits (drive (.ok (.bits (bitsOf v))) s) s (bitsOf v) :=
  drivesBits_drive (bitsOf v) s (by simpa using h)

theorem exec_encReg3_sreg (c : BitVec 3) (s : State) :
    exec (.encReg3 (.sreg c)) s =
      drive (if c.toNat ≤ 5 then .ok (.bits (bitsOf c)) else .err .unsupported) s := rfl

theorem exec_encSreg2_sreg (c : BitVec 3) (s : State) :
    exec (.encSreg2 (.sreg c)) s =
      drive (if c.toNat ≤ 3 then .ok (.bits (bitsOf (c.setWidth 2)))
        else if c.toNat ≤ 5 then .err .encodingNotRepresentable
        else .err .unsupported) s := rfl

theorem drivesBits_encReg3_gpr (r : Gpr) (s : State) : DrivesBits (exec (.encReg3 (.gpr r)) s) s (bitsOf r.code) :=
  drivesBits_drive_bitsOf r.code s (by decide)

theorem drivesBits_encReg3_spr (r : SPR) (s : State) :
    DrivesBits (exec (.encReg3 (.spr r)) s) s (bitsOf (Config.sprCode r)) :=
  drivesBits_drive_bitsOf (Config.sprCode r) s (by decide)

theorem drivesBits_opsizeOf_gpr (g : Gpr) (s : State) :
    DrivesBits (exec (.opsizeOf (.gpr g)) s) s
      [decide (g.cls = .w32 ∨ g.cls = .w64), decide (g.cls = .w16 ∨ g.cls = .w64)] :=
  bitsOf_sizeClass_code g.cls ▸ drivesBits_drive_size g.cls s

theorem drivesBits_wBit (c : SizeClass) (s : State) : DrivesBits (exec (.wBit c) s) s (wBit c) :=
  drivesBits_drive (wBit c) s (by simp)

theorem drivesBits_wBitReg_gpr (g : Gpr) (s : State) : DrivesBits (exec (.wBitReg (.gpr g)) s) s (wBit g.cls) :=
  drivesBits_wBit g.cls s

theorem drivesBits_sBit (se : SignExtend) (c : SizeClass) (s : State) :
    DrivesBits (exec (.sBit se c) s) s (sBit se c) :=
  drivesBits_drive (sBit se c) s (by simp)

theorem drivesBits_dBit (dir : Direction) (s : State) : DrivesBits (exec (.dBit dir) s) s (dBit dir) :=
  drivesBits_drive (dBit dir) s (by simp)

theorem drivesBits_tttn (cond : BitVec 4) (s : State) : DrivesBits (exec (.tttn cond) s) s (bitsOf cond) :=
  drivesBits_drive_bitsOf cond s (by decide)

/-- Only a general-purpose register has a class and a `w` bit (R192, R194). -/
theorem drivesError_of_not_gpr (r : RegPort) (s : State) (h : ∀ g, r ≠ .gpr g) :
    DrivesError (exec (.opsizeOf r) s) s .unsupported ∧ DrivesError (exec (.wBitReg r) s) s .unsupported := by
  cases r with
  | gpr g => exact absurd rfl (h g)
  | sreg _ | spr _ | noFile => exact ⟨drivesError_drive .unsupported s, drivesError_drive .unsupported s⟩

/-! ### The obligations -/

/-- Settles O19: a register drives the three bits of its code, and a segment code above 5 is none. -/
theorem encReg3GivesTheCode : Obligations.EncReg3GivesTheCode := by
  intro s
  refine ⟨fun r => bitsOf_three r.code ▸ drivesBits_encReg3_gpr r s, fun c => ⟨fun hc => ?_, fun hc => ?_⟩,
    fun r => bitsOf_three (Config.sprCode r) ▸ drivesBits_encReg3_spr r s, drivesError_drive .unsupported s,
    fun hop => step_of_op hop rfl⟩
  · rw [exec_encReg3_sreg, if_pos hc, ← bitsOf_three]
    exact drivesBits_drive_bitsOf c s (by decide)
  · rw [exec_encReg3_sreg, if_neg (by omega)]
    exact drivesError_drive .unsupported s

/-- Settles O20: the segment codes up to 3 fit two bits, 4 and 5 are registers that do not, and nothing else is a
segment register. -/
theorem encSreg2FitsFourRegisters : Obligations.EncSreg2FitsFourRegisters := by
  intro s
  refine ⟨fun c => ⟨fun hc => ?_, fun hc => ?_, fun hc => ?_⟩, fun _ => drivesError_drive .unsupported s,
    fun _ => drivesError_drive .unsupported s, drivesError_drive .unsupported s, fun hop => step_of_op hop rfl⟩
  · rw [exec_encSreg2_sreg, if_pos hc, ← bitsOf_setWidth_two]
    exact drivesBits_drive_bitsOf (c.setWidth 2) s (by decide)
  · rw [exec_encSreg2_sreg, if_neg (by omega), if_pos (by omega)]
    exact drivesError_drive .encodingNotRepresentable s
  · rw [exec_encSreg2_sreg, if_neg (by omega), if_neg (by omega)]
    exact drivesError_drive .unsupported s

/-- Settles O21: the class drives its code and its `w` bit, which the register's own code has no part in. -/
theorem registerClassAndWidthBit : Obligations.RegisterClassAndWidthBit := fun s =>
  ⟨fun c =>
    ⟨drivesBits_opsizeOf_gpr ⟨c, .w8⟩ s, drivesBits_opsizeOf_gpr ⟨c, .w16⟩ s, drivesBits_opsizeOf_gpr ⟨c, .w32⟩ s,
      drivesBits_opsizeOf_gpr ⟨c, .w64⟩ s, drivesBits_wBitReg_gpr ⟨c, .w8⟩ s, drivesBits_wBitReg_gpr ⟨c, .w16⟩ s,
      drivesBits_wBitReg_gpr ⟨c, .w32⟩ s, drivesBits_wBitReg_gpr ⟨c, .w64⟩ s⟩,
    fun r h => drivesError_of_not_gpr r s h, fun hop => step_of_op hop rfl, fun hop => step_of_op hop rfl⟩

/-- Settles O22: each encoder drives its field, which is the bit or the code stated. -/
theorem fieldBitsOfTheEnumerations : Obligations.FieldBitsOfTheEnumerations := fun s =>
  ⟨fun c => wBit_eq_decide c ▸ drivesBits_wBit c s, fun se c => sBit_eq_decide se c ▸ drivesBits_sBit se c s,
    fun dir => dBit_eq_decide dir ▸ drivesBits_dBit dir s, fun cond => bitsOf_four cond ▸ drivesBits_tttn cond s,
    fun hop => step_of_op hop rfl, fun hop => step_of_op hop rfl, fun hop => step_of_op hop rfl,
    fun hop => step_of_op hop rfl⟩

end Machine

end Sys2Proof
end

section
/-! PROOFS. Byte assemblers (42_byte_assemblers.md): the fields of a ModR/M and a SIB byte, the bytes of a displacement,
and ENCODE's instructions as what the primitives give. -/

namespace Sys2Proof

/-! ### Fields packed side by side (R12, R220) -/

/-- The bits of two values side by side are the high value's, then the low value's. -/
theorem bitsOf_append {k n : Nat} (a : BitVec k) (b : BitVec n) : bitsOf (a ++ b) = bitsOf a ++ bitsOf b := by
  refine List.ext_getElem (by simp) fun i hi _ => ?_
  rw [length_bitsOf] at hi
  rcases Nat.lt_or_ge i k with hlt | hge
  · rw [List.getElem_append_left (by simpa using hlt)]
    simp only [bitsOf, List.getElem_map, List.getElem_range, BitVec.getLsbD_append]
    rw [if_neg (by omega), show k + n - 1 - i - n = k - 1 - i by omega]
  · rw [List.getElem_append_right (by simpa using hge)]
    simp only [bitsOf, List.getElem_map, List.getElem_range, BitVec.getLsbD_append, List.length_map, List.length_range]
    rw [if_pos (by omega), show n - 1 - (i - k) = k + n - 1 - i by omega]

/-- `pack8` puts the bits of a byte back where they were. -/
theorem pack8_bitsOf (b : Byte) : pack8 (bitsOf b) = b := by
  refine BitVec.eq_of_getLsbD_eq fun i hi => ?_
  have hdigit := getLsbD_packBits .msbFirst (bitsOf b) (length_bitsOf b) (7 - i) (by omega)
  have hbit : 7 - (7 - i) = i := by omega
  simpa [pack8, bitsOf, BitOrder.bitOf, hbit, show 7 - i < 8 by omega] using hdigit

/-- Values side by side are one number: the low value's width shifts the high one. -/
theorem toNat_append_eq_add {k n : Nat} (a : BitVec k) (b : BitVec n) :
    (a ++ b).toNat = 2 ^ n * a.toNat + b.toNat := by
  rw [BitVec.toNat_append, ← Nat.shiftLeft_add_eq_or_of_lt b.isLt, Nat.shiftLeft_eq, Nat.mul_comm]

/-- A byte of a 2-bit and two 3-bit fields, as a number: the layout that ModR/M and SIB share (R222). -/
theorem toNat_pack8_fields (a : BitVec 2) (b c : BitVec 3) :
    (pack8 (bitsOf a ++ bitsOf b ++ bitsOf c)).toNat = 64 * a.toNat + 8 * b.toNat + c.toNat := by
  rw [← bitsOf_append, ← bitsOf_append, pack8_bitsOf, toNat_append_eq_add, toNat_append_eq_add]
  omega

namespace Machine

/-! ### What the assemblers, BUILD_REX and LPFX_EMIT drive (R222–R225, R240, R243) -/

theorem toNat_modrm (mod : BitVec 2) (regf rm : BitVec 3) :
    (modrm (bitsOf mod) (bitsOf regf) (bitsOf rm)).toNat = 64 * mod.toNat + 8 * regf.toNat + rm.toNat :=
  toNat_pack8_fields mod regf rm

theorem toNat_sib (scale : BitVec 2) (index base : BitVec 3) :
    (sib (bitsOf scale) (bitsOf index) (bitsOf base)).toNat = 64 * scale.toNat + 8 * index.toNat + base.toNat :=
  toNat_pack8_fields scale index base

theorem drivesBytes_asmModrm (mod : BitVec 2) (regf rm : BitVec 3) (s : State) :
    DrivesBytes (exec (.asmModrm mod regf rm) s) s [modrm (bitsOf mod) (bitsOf regf) (bitsOf rm)] :=
  drivesBytes_drive _ s (by simp)

theorem drivesBytes_asmSib (scale : BitVec 2) (index base : BitVec 3) (s : State) :
    DrivesBytes (exec (.asmSib scale index base) s) s [sib (bitsOf scale) (bitsOf index) (bitsOf base)] :=
  drivesBytes_drive _ s (by simp)

theorem drivesBytes_asmDisp8 (v : BitVec 8) (s : State) : DrivesBytes (exec (.asmDisp (.b8 v)) s) s [v] :=
  drivesBytes_drive [v] s (by simp)

theorem drivesBytes_asmDisp16 (v : BitVec 16) (s : State) : DrivesBytes (exec (.asmDisp (.b16 v)) s) s (leBytes 2 v) :=
  drivesBytes_drive (leBytes 2 v) s (by simp)

theorem drivesBytes_asmDisp32 (v : BitVec 32) (s : State) : DrivesBytes (exec (.asmDisp (.b32 v)) s) s (leBytes 4 v) :=
  drivesBytes_drive (leBytes 4 v) s (by simp)

theorem drivesBytes_buildRex (w r x b : BitVec 1) (s : State) :
    DrivesBytes (exec (.buildRex w r x b) s) s [rexByte w r x b] :=
  drivesBytes_drive _ s (by simp)

/-- LPFX_EMIT of one kind, where the port has a slot. -/
theorem drivesBytes_lpfxEmit_one (k : PrefixKind) (s : State) (hslot : 1 ≤ s.params.lpfxMax) :
    DrivesBytes (exec (.lpfxEmit 1 [k.code]) s) s [k.byte] := by
  show DrivesBytes (drive (lpfxEmit s.params 1 [k.code]) s) s [k.byte]
  have hemit : lpfxEmit s.params 1 [k.code] = .ok (.bytes [k.byte]) := lpfxEmit_kinds s.params 1 [k] rfl hslot
  rw [hemit]
  exact drivesBytes_drive [k.byte] s (by simp)

/-! ### The selector's prefixes (R246–R248) -/

theorem prefixPart_w64 (p : Params) (m : Mode) : prefixPart p .w64 m = [rexByte 1 0 0 0] :=
  prefixPart_eq p .w64 m

/-- The operand size that is not the mode's default takes the override (R246). -/
theorem prefixPart_of_override {p : Params} {c : SizeClass} {m : Mode}
    (h : (c = .w16 ∧ p.defaultOpsize m = .w32) ∨ (c = .w32 ∧ p.defaultOpsize m = .w16)) :
    prefixPart p c m = [PrefixKind.opsize.byte] := by
  rw [prefixPart_eq]
  rcases h with ⟨rfl, hm⟩ | ⟨rfl, hm⟩
  · exact if_pos hm
  · exact if_pos hm

/-- Neither 64 bits nor the override: the selector gives nothing (R248). -/
theorem prefixPart_of_no_override {p : Params} {c : SizeClass} {m : Mode} (h64 : c ≠ .w64)
    (h : ¬ ((c = .w16 ∧ p.defaultOpsize m = .w32) ∨ (c = .w32 ∧ p.defaultOpsize m = .w16))) :
    prefixPart p c m = [] := by
  rw [prefixPart_eq]
  cases c with
  | w8 => rfl
  | w16 => exact if_neg fun hm => h (.inl ⟨rfl, hm⟩)
  | w32 => exact if_neg fun hm => h (.inr ⟨rfl, hm⟩)
  | w64 => exact absurd rfl h64

/-! ### The opcodes and fields of ADC and ADD as PACKBITS and ASM_MODRM give them (R221, R222, R265) -/

/-- ADC or ADD, as the bit in which their operation numbers differ. -/
def aluMnemonic (adc : Bool) : Mnemonic :=
  if adc then .adc else .add

theorem aluMnemonic_eq (adc : Bool) : aluMnemonic adc = .adc ∨ aluMnemonic adc = .add := by
  cases adc
  · exact .inr rfl
  · exact .inl rfl

theorem code_aluMnemonic (adc : Bool) : (aluMnemonic adc).code = if adc then 0 else 1 := by
  cases adc <;> rfl

theorem aluNum_aluMnemonic (adc : Bool) : aluNum (aluMnemonic adc) = [false, adc, false] := by
  cases adc <;> rfl

/-- The mnemonic's number as a value of the reg field. -/
theorem aluNum_aluMnemonic_eq_bitsOf (adc : Bool) :
    aluNum (aluMnemonic adc) = bitsOf (if adc then 2 else 0 : BitVec 3) := by
  cases adc <;> rfl

/-- The s field is S_BIT's, but 0 for an 8-bit destination (R265). -/
theorem sField_eq (w iw : SizeClass) (se : SignExtend) :
    sField w iw se = [w != .w8 && decide (se = .signExtend ∧ iw = .w8)] := by
  unfold sField
  split
  · simp [*]
  · simp [*, sBit_eq_decide]

theorem drivesBytes_packbits_opAcc (adc : Bool) (c : SizeClass) (s : State) :
    DrivesBytes (exec (.packbits [false, false, false, adc, false, true, false, decide (c ≠ .w8)] .msbFirst) s) s
      [opAcc (aluNum (aluMnemonic adc)) (wBit c)] := by
  rw [aluNum_aluMnemonic, wBit_eq_decide]
  exact drivesBytes_packbits _ .msbFirst s rfl

theorem drivesBytes_packbits_opGrp1 (w iw : SizeClass) (se : SignExtend) (s : State) :
    DrivesBytes (exec (.packbits [true, false, false, false, false, false,
        w != .w8 && decide (se = .signExtend ∧ iw = .w8), decide (w ≠ .w8)] .msbFirst) s) s
      [opGrp1 (sField w iw se) (wBit w)] := by
  rw [sField_eq, wBit_eq_decide]
  exact drivesBytes_packbits _ .msbFirst s rfl

theorem drivesBytes_packbits_opAluRr (adc : Bool) (dir : Direction) (c : SizeClass) (s : State) :
    DrivesBytes (exec (.packbits [false, false, false, adc, false, false, decide (dir = .toReg), decide (c ≠ .w8)]
        .msbFirst) s) s
      [opAluRr (aluNum (aluMnemonic adc)) (dBit dir) (wBit c)] := by
  rw [aluNum_aluMnemonic, dBit_eq_decide, wBit_eq_decide]
  exact drivesBytes_packbits _ .msbFirst s rfl

/-- The ModR/M byte of an immediate: mod 3, the mnemonic's number, the destination. -/
theorem drivesBytes_asmModrm_group (adc : Bool) (r : BitVec 3) (s : State) :
    DrivesBytes (exec (.asmModrm 3 (if adc then 2 else 0) r) s) s
      [modrm [true, true] (aluNum (aluMnemonic adc)) (bitsOf r)] := by
  rw [aluNum_aluMnemonic_eq_bitsOf]
  exact drivesBytes_asmModrm 3 _ r s

/-- The ModR/M byte of two registers: mod 3, and the direction says which register the reg field holds. -/
theorem drivesBytes_asmModrm_registers (dst src : BitVec 3) (dir : Direction) (s : State) :
    DrivesBytes (exec (if dir = .toRM then .asmModrm 3 src dst else .asmModrm 3 dst src) s) s
      [modrm [true, true] (bitsOf (if dir = .toRM then src else dst)) (bitsOf (if dir = .toRM then dst else src))] := by
  cases dir with
  | toRM => exact drivesBytes_asmModrm 3 src dst s
  | toReg => exact drivesBytes_asmModrm 3 dst src s

/-! ### ENCODE's instructions in the algorithm's own bytes (R263–R271) -/

/-- The immediates that need no extension: the destination's own width, or 32 bits for 64 (R265). -/
theorem riKind_of_full {w iw : SizeClass} {se : SignExtend}
    (h : ((iw == w && w != .w64) || (w == .w64 && iw == .w32)) = true) : riKind w iw se = some .full := by
  revert h
  cases w <;> cases iw <;> cases se <;> decide

/-- The immediates that are sign-extended: 8 bits, on request, for a wider destination (R265). -/
theorem riKind_of_sext {w iw : SizeClass} {se : SignExtend} (h : (w != .w8 && iw == .w8 && se == .signExtend) = true) :
    riKind w iw se = some .sext8 := by
  revert h
  cases w <;> cases iw <;> cases se <;> decide

section Algorithm

variable {p : Params} {k : Mnemonic} {d r : Gpr} {v : Sized} {se : SignExtend} {dir : Direction} {m : Mode}

/-- A full-width immediate to the accumulator: the short form (R267). -/
theorem alu_eq_short (hmode : d.cls = .w64 → m = .bit64) (hkind : riKind d.cls v.cls se = some .full)
    (hd : d.code = 0) :
    alu p k [.reg d, .imm v] se dir m =
      .ok (.bytes (prefixPart p d.cls m ++ opAcc (aluNum k) (wBit d.cls) :: v.leBytes)) := by
  rw [alu_register_immediate, if_neg fun h => h.2 (hmode h.1), riEncode, hkind]
  simp [hd]

/-- Every other admitted immediate: group 1 (R267). -/
theorem alu_eq_group (hmode : d.cls = .w64 → m = .bit64) {kind : RiKind} (hkind : riKind d.cls v.cls se = some kind)
    (hshort : ¬ (kind = .full ∧ d.code = 0)) :
    alu p k [.reg d, .imm v] se dir m =
      .ok (.bytes (prefixPart p d.cls m ++ opGrp1 (sField d.cls v.cls se) (wBit d.cls) ::
        modrm [true, true] (aluNum k) (bitsOf d.code) :: v.leBytes)) := by
  rw [alu_register_immediate, if_neg fun h => h.2 (hmode h.1), riEncode, hkind]
  dsimp only
  rw [if_neg hshort, List.append_assoc]
  rfl

/-- Two registers of one width (R270, R271). -/
theorem alu_eq_registers (hmode : d.cls = .w64 → m = .bit64) (hcls : d.cls = r.cls) :
    alu p k [.reg d, .reg r] se dir m =
      .ok (.bytes (prefixPart p d.cls m ++ [opAluRr (aluNum k) (dBit dir) (wBit d.cls),
        modrm [true, true] (bitsOf (if dir = .toRM then r.code else d.code))
          (bitsOf (if dir = .toRM then d.code else r.code))])) := by
  rw [alu_register_register, ← hcls, if_neg fun h => h.2 (hmode (or_self_iff.1 h.1)), rrEncode, if_neg (not_not.2 hcls)]

end Algorithm

/-- ENCODE of ADC or ADD on two operands drives the bytes its algorithm answers, for they fit the ports (R260). -/
theorem drivesBytes_encode_alu {adc : Bool} {m : Mode} {o0 o1 : Operand} {se : SignExtend} {dir : Direction}
    {s : State} {bs : ByteSeq} (h : alu s.params (aluMnemonic adc) [o0, o1] se dir m = .ok (.bytes bs)) :
    DrivesBytes (exec (.encode m.code (if adc then 0 else 1) 2 o0 o1 se dir) s) s bs := by
  have hresult : encodeResult s.params m.code (if adc then 0 else 1) 2 o0 o1 se dir = .ok (.bytes bs) := by
    rw [← code_aluMnemonic, encodeResult_of_used s.params m _ 2 o0 o1 se dir [o0, o1] rfl, ← h]
    cases adc <;> rfl
  have hfits := fits_encodeResult s.params m.code (if adc then 0 else 1) 2 o0 o1 se dir
  rw [hresult, fits_bytes] at hfits
  show DrivesBytes (drive (encodeResult s.params m.code (if adc then 0 else 1) 2 o0 o1 se dir) s) s bs
  rw [hresult]
  exact drivesBytes_drive bs s (by omega)

/-! ### The obligations -/

/-- Settles O47: the algorithm's prefixes, opcodes, ModR/M bytes and immediate are each a primitive's result, and its
answer is those bytes one after the other. -/
theorem encodeIsComposedOfThePrimitives : Obligations.EncodeIsComposedOfThePrimitives := by
  intro s m adc d r v se dir hslot hmode
  refine ⟨prefixPart s.params d.cls m, v.leBytes, decide (d.cls ≠ .w8), decide (se = .signExtend ∧ v.cls = .w8),
    decide (dir = .toReg), _, _, _, _, _, fun h64 => ?rex, fun hover => ?override,
    fun ⟨h64, hover⟩ => prefixPart_of_no_override h64 hover, ?immediate, wBit_eq_decide d.cls ▸ drivesBits_wBit d.cls s,
    sBit_eq_decide se v.cls ▸ drivesBits_sBit se v.cls s, dBit_eq_decide dir ▸ drivesBits_dBit dir s,
    drivesBytes_packbits_opAcc adc d.cls s, drivesBytes_packbits_opGrp1 d.cls v.cls se s,
    drivesBytes_packbits_opAluRr adc dir d.cls s, drivesBytes_asmModrm_group adc d.code s,
    drivesBytes_asmModrm_registers d.code r.code dir s,
    fun ⟨hfull, hd⟩ => drivesBytes_encode_alu (alu_eq_short hmode (riKind_of_full hfull) hd), fun h => ?group,
    fun hcls => drivesBytes_encode_alu (alu_eq_registers hmode hcls)⟩
  case rex =>
    rw [h64, prefixPart_w64]
    exact drivesBytes_buildRex 1 0 0 0 s
  case override =>
    rw [prefixPart_of_override hover]
    exact drivesBytes_lpfxEmit_one .opsize s hslot
  case immediate =>
    cases v with
    | b8 x => rfl
    | b16 x => exact drivesBytes_leSer16 x s
    | b32 x => exact drivesBytes_leSer32 x s
    | b64 x => exact drivesBytes_leSer64 x s
  case group =>
    rcases h with ⟨hfull, hd⟩ | hsext
    · exact drivesBytes_encode_alu (alu_eq_group hmode (riKind_of_full hfull) fun h => hd h.2)
    · exact drivesBytes_encode_alu (alu_eq_group hmode (riKind_of_sext hsext) nofun)

/-- Settles O23: either byte is its three fields side by side. -/
theorem modrmAndSibPackTheirFields : Obligations.ModrmAndSibPackTheirFields := fun s =>
  ⟨fun mod regf rm => ⟨_, drivesBytes_asmModrm mod regf rm s, toNat_modrm mod regf rm⟩,
    fun scale index base => ⟨_, drivesBytes_asmSib scale index base s, toNat_sib scale index base⟩,
    fun hop => step_of_op hop rfl, fun hop => step_of_op hop rfl⟩

/-- Settles O24: the bytes driven are `leBytes` of the displacement, and no 64-bit displacement exists. -/
theorem displacementIsEmittedLowByteFirst : Obligations.DisplacementIsEmittedLowByteFirst := fun s =>
  ⟨fun v => drivesBytes_asmDisp8 v s, fun v => leBytes_two v ▸ drivesBytes_asmDisp16 v s,
    fun v => leBytes_four v ▸ drivesBytes_asmDisp32 v s, fun _ => drivesError_drive .encodingNotRepresentable s,
    fun hop => step_of_op hop rfl⟩

end Machine

end Sys2Proof
end

section
/-! PROOFS. BUILD_REX, LPFX_EMIT and LPFX_RECOG (43_prefix_builders.md): the number of a REX byte, the bytes of a list of
kind codes, and the group of a byte. -/

namespace Sys2Proof

/-! ### The codes and bytes of R68 -/

/-- A code that names a kind is that kind's code. -/
theorem PrefixKind.eq_code_of_ofCode (c : BitVec 4) (k : PrefixKind) : PrefixKind.ofCode c = some k → c = k.code := by
  revert c; cases k <;> decide

/-- Every code up to 12 is a kind's (R68). -/
theorem PrefixKind.exists_eq_code {c : BitVec 4} (h : c.toNat ≤ 12) : ∃ k : PrefixKind, c = k.code := by
  have hnamed : PrefixKind.ofCode c ≠ none := fun hnone => h.not_gt ((PrefixKind.ofCode_eq_none c).1 hnone)
  obtain ⟨k, hk⟩ := Option.ne_none_iff_exists'.1 hnamed
  exact ⟨k, PrefixKind.eq_code_of_ofCode c k hk⟩

/-- A list of such codes is the list of the codes of kinds. -/
theorem PrefixKind.exists_map_code_eq {codes : List (BitVec 4)} (h : ∀ c ∈ codes, c.toNat ≤ 12) :
    ∃ ks : List PrefixKind, ks.map PrefixKind.code = codes := by
  have hrange : codes ∈ Set.range (List.map PrefixKind.code) := by
    rw [Set.range_list_map]
    intro c hc
    obtain ⟨k, hk⟩ := PrefixKind.exists_eq_code (h c hc)
    exact ⟨k, hk.symm⟩
  exact hrange

/-- The byte column of R68, by port code. -/
def prefixByteColumn : ByteSeq :=
  [0xF0, 0xF2, 0xF3, 0x2E, 0x36, 0x3E, 0x26, 0x64, 0x65, 0x2E, 0x3E, 0x66, 0x67]

theorem prefixByteColumn_code (k : PrefixKind) : prefixByteColumn.getD k.code.toNat 0 = k.byte := by
  cases k <;> rfl

/-- The bytes of the column at the codes of kinds are the kinds' bytes. -/
theorem map_prefixByteColumn_code (ks : List PrefixKind) :
    (ks.map PrefixKind.code).map (fun c => prefixByteColumn.getD c.toNat 0) = ks.map PrefixKind.byte := by
  rw [List.map_map]
  exact List.map_congr_left fun k _ => prefixByteColumn_code k

/-! ### The group of a byte (R244) -/

theorem prefixGroup_of_group1 {b : Byte} (h : b ∈ ([0xF0, 0xF2, 0xF3] : List Byte)) : prefixGroup b = some 0 := by
  simp only [List.mem_cons, List.not_mem_nil, or_false] at h
  exact if_pos h

theorem prefixGroup_of_group2 {b : Byte} (h : b ∈ ([0x2E, 0x36, 0x3E, 0x26, 0x64, 0x65] : List Byte)) :
    prefixGroup b = some 1 := by
  simp only [List.mem_cons, List.not_mem_nil, or_false] at h
  rcases h with rfl | rfl | rfl | rfl | rfl | rfl <;> rfl

/-- A byte in no row of R68 belongs to no group. -/
theorem prefixGroup_of_not_mem {b : Byte}
    (h : b ∉ ([0xF0, 0xF2, 0xF3, 0x2E, 0x36, 0x3E, 0x26, 0x64, 0x65, 0x66, 0x67] : List Byte)) :
    prefixGroup b = none := by
  simp only [List.mem_cons, List.not_mem_nil, or_false, not_or] at h
  simp only [prefixGroup, h, or_self, if_false]

namespace Machine

/-! ### BUILD_REX (R240) -/

/-- The fixed nibble and the four bits side by side, as a number. -/
theorem toNat_rexByte (w r x b : BitVec 1) :
    (rexByte w r x b).toNat = 0x40 + 8 * w.toNat + 4 * r.toNat + 2 * x.toNat + b.toNat := by
  have hbyte : rexByte w r x b = (4#4 ++ w ++ r ++ x ++ b : BitVec 8) := by
    rw [← pack8_bitsOf (4#4 ++ w ++ r ++ x ++ b), bitsOf_append, bitsOf_append, bitsOf_append, bitsOf_append]
    rfl
  rw [hbyte]
  simp only [toNat_append_eq_add, BitVec.toNat_ofNat]
  omega

/-! ### What LPFX_EMIT and LPFX_RECOG drive (R243, R244) -/

/-- LPFX_EMIT of as many kinds as `npk` can count and the port has slots for. -/
theorem drivesBytes_lpfxEmit_kinds (ks : List PrefixKind) (s : State) (hlen : ks.length ≤ 7)
    (hslots : ks.length ≤ s.params.lpfxMax) :
    DrivesBytes (exec (.lpfxEmit (BitVec.ofNat 3 ks.length) (ks.map PrefixKind.code)) s) s
      (ks.map PrefixKind.byte) := by
  have hcount : (BitVec.ofNat 3 ks.length).toNat = ks.length := by
    rw [BitVec.toNat_ofNat]
    omega
  show DrivesBytes (drive (lpfxEmit s.params (BitVec.ofNat 3 ks.length) (ks.map PrefixKind.code)) s) s _
  rw [lpfxEmit_kinds s.params _ ks hcount hslots]
  exact drivesBytes_drive _ s (by rw [List.length_map]; omega)

theorem lpfxEmit_of_too_many {p : Params} {npk : BitVec 3} (codes : List (BitVec 4)) (h : p.lpfxMax < npk.toNat) :
    lpfxEmit p npk codes = .err .unsupported :=
  if_pos h

/-- One used code that names no kind is an error, whatever the count (R243). -/
theorem lpfxEmit_of_unnamed (p : Params) {npk : BitVec 3} {codes : List (BitVec 4)}
    (h : ∃ c ∈ codes.take npk.toNat, 12 < c.toNat) : lpfxEmit p npk codes = .err .unsupported := by
  rw [lpfxEmit, kindBytes_eq_none _ h]
  exact ite_self _

theorem drivesError_lpfxEmit {npk : BitVec 3} {codes : List (BitVec 4)} {s : State}
    (h : lpfxEmit s.params npk codes = .err .unsupported) :
    DrivesError (exec (.lpfxEmit npk codes) s) s .unsupported := by
  show DrivesError (drive (lpfxEmit s.params npk codes) s) s .unsupported
  rw [h]
  exact drivesError_drive .unsupported s

/-- LPFX_RECOG drives the code of the byte's group. -/
theorem drivesBits_lpfxRecog {b : Byte} {g : Option (Fin 4)} (h : prefixGroup b = g) (s : State) :
    DrivesBits (exec (.lpfxRecog b) s) s (bitsOf (groupCode g)) := by
  subst h
  exact drivesBits_drive_group (prefixGroup b) s

/-! ### The obligations -/

/-- Settles O26: codes in numbers are the codes of kinds, whose bytes come out in order; a count past the slots and a
code that names no kind are the two errors. -/
theorem prefixesAreEmittedInCallerOrder : Obligations.PrefixesAreEmittedInCallerOrder := by
  intro s
  refine ⟨fun codes hlen hslots hnamed => ?_, fun ks hlen hslots => drivesBytes_lpfxEmit_kinds ks s hlen hslots,
    fun npk codes h => drivesError_lpfxEmit (lpfxEmit_of_too_many codes h),
    fun npk codes h => drivesError_lpfxEmit (lpfxEmit_of_unnamed s.params h), fun hop => step_of_op hop rfl⟩
  obtain ⟨ks, rfl⟩ := PrefixKind.exists_map_code_eq hnamed
  rw [List.length_map] at hlen hslots ⊢
  exact map_prefixByteColumn_code ks ▸ drivesBytes_lpfxEmit_kinds ks s hlen hslots

/-- Settles O25: the byte is the nibble 0100 and the four bits side by side. -/
theorem rexByteHasItsFixedNibble : Obligations.RexByteHasItsFixedNibble := fun s =>
  ⟨fun w r x b => ⟨_, drivesBytes_buildRex w r x b s, toNat_rexByte w r x b⟩, fun hop => step_of_op hop rfl⟩

/-- Settles O27: the bits driven are those of the code of the byte's group. -/
theorem prefixByteIsRecognisedByGroup : Obligations.PrefixByteIsRecognisedByGroup := fun s =>
  ⟨fun _ hb => drivesBits_lpfxRecog (prefixGroup_of_group1 hb) s,
    fun _ hb => drivesBits_lpfxRecog (prefixGroup_of_group2 hb) s,
    drivesBits_lpfxRecog (prefixGroup_byte .opsize) s, drivesBits_lpfxRecog (prefixGroup_byte .addrsize) s,
    fun _ hb => drivesBits_lpfxRecog (prefixGroup_of_not_mem hb) s, fun hop => step_of_op hop rfl⟩

end Machine

end Sys2Proof
end

section
/-! PROOFS. ENCODE of ADC and ADD (44_alu_encoders.md): the checks of R260 and R263 in their order, and the bytes of the
admitted widths in numbers. -/

namespace Sys2Proof.Machine

/-! ### The port codes ENCODE looks at first (R260, R319) -/

/-- Every code up to 4 is a mode's (R46). -/
theorem exists_mode_of_code_le {c : BitVec 3} (h : c.toNat ≤ 4) : ∃ m, Mode.ofCode c = some m :=
  Option.ne_none_iff_exists'.1 fun hnone => h.not_gt ((Mode.ofCode_eq_none c).1 hnone)

/-- Every count but 3 says which operand ports are in use (R103). -/
theorem exists_usedOperands {n : BitVec 2} (o0 o1 : Operand) (h : n ≠ 3) : ∃ ops, usedOperands n o0 o1 = some ops := by
  have hcount : n = 0 ∨ n = 1 ∨ n = 2 := by
    revert n
    decide
  rcases hcount with rfl | rfl | rfl
  · exact ⟨[], usedOperands_zero o0 o1⟩
  · exact ⟨[o0], usedOperands_one o0 o1⟩
  · exact ⟨[o0, o1], usedOperands_two o0 o1⟩

section PortCodes

variable {p : Params} {mode : BitVec 3} {mn : BitVec 8} {n : BitVec 2} {o0 o1 : Operand} {se : SignExtend}
  {dir : Direction} {m : Mode}

theorem encodeResult_of_no_mode (hmode : Mode.ofCode mode = none) :
    encodeResult p mode mn n o0 o1 se dir = .err .unsupported := by
  rw [encodeResult, hmode]

theorem encodeResult_of_no_count (hmode : Mode.ofCode mode = some m) (hcount : usedOperands n o0 o1 = none) :
    encodeResult p mode mn n o0 o1 se dir = .err .unsupported := by
  rw [encodeResult, hmode, hcount]

theorem encodeResult_of_no_mnemonic {ops : List Operand} (hmode : Mode.ofCode mode = some m)
    (hcount : usedOperands n o0 o1 = some ops) (hmn : Mnemonic.ofCode mn = none) :
    encodeResult p mode mn n o0 o1 se dir = .err .notYetSupported := by
  rw [encodeResult, hmode, hcount, hmn]

/-- ENCODE drives the error that its algorithm answers. -/
theorem drivesError_encode {s : State} {e : ErrKind}
    (h : encodeResult s.params mode mn n o0 o1 se dir = .err e) :
    DrivesError (exec (.encode mode mn n o0 o1 se dir) s) s e := by
  show DrivesError (drive (encodeResult s.params mode mn n o0 o1 se dir) s) s e
  rw [h]
  exact drivesError_drive e s

/-- Past its port codes, ENCODE of ADC or ADD drives the error that `alu` answers. -/
theorem drivesError_encode_alu {k : Mnemonic} {ops : List Operand} {s : State} {e : ErrKind}
    (hk : k = .adc ∨ k = .add) (hops : usedOperands n o0 o1 = some ops)
    (h : alu s.params k ops se dir m = .err e) :
    DrivesError (exec (.encode m.code k.code n o0 o1 se dir) s) s e := by
  refine drivesError_encode ?_
  rw [encodeResult_eq_familyResult s.params m k n o0 o1 se dir ops hops, ← h]
  rcases hk with rfl | rfl <;> rfl

/-- The same of ADC or ADD as a bit, on two operands: the error's twin of `drivesBytes_encode_alu`. -/
theorem drivesError_encode_aluMnemonic {adc : Bool} {s : State} {e : ErrKind}
    (h : alu s.params (aluMnemonic adc) [o0, o1] se dir m = .err e) :
    DrivesError (exec (.encode m.code (if adc then 0 else 1) 2 o0 o1 se dir) s) s e :=
  code_aluMnemonic adc ▸ drivesError_encode_alu (aluMnemonic_eq adc) (usedOperands_two o0 o1) h

end PortCodes

/-! ### The checks of `alu` in their order (R261, R263, R264, R266, R272) -/

/-- What the mode check looks for: a 64-bit register in a used port (R264). -/
theorem any_isReg64_iff (ops : List Operand) :
    ops.any isReg64 = true ↔ ∃ r, Operand.reg r ∈ ops ∧ r.cls = .w64 := by
  rw [List.any_eq_true]
  constructor
  · rintro ⟨o, ho, h64⟩
    cases o with
    | reg r => exact ⟨r, ho, by simpa [isReg64] using h64⟩
    | absent | imm | mem => cases h64
  · rintro ⟨r, hr, h64⟩
    exact ⟨.reg r, hr, by simpa [isReg64] using h64⟩

/-- What the shape MEM looks for: a memory reference in a used port (R261). -/
theorem any_isMem_iff (ops : List Operand) : ops.any isMem = true ↔ ∃ x, Operand.mem x ∈ ops := by
  rw [List.any_eq_true]
  constructor
  · rintro ⟨o, ho, hmem⟩
    cases o with
    | mem x => exact ⟨x, ho⟩
    | absent | reg | imm => cases hmem
  · rintro ⟨x, hx⟩
    exact ⟨.mem x, hx, rfl⟩

theorem shapeOf_eq_mem {ops : List Operand} (h : ∃ x, Operand.mem x ∈ ops) : shapeOf ops = .mem :=
  if_pos ((any_isMem_iff ops).2 h)

theorem shapeOf_eq_bad {ops : List Operand} (hmem : ∀ x, Operand.mem x ∉ ops) (hri : ∀ d v, ops ≠ [.reg d, .imm v])
    (hrr : ∀ d r, ops ≠ [.reg d, .reg r]) : shapeOf ops = .bad := by
  have hany : ¬ ops.any isMem = true := fun h => ((any_isMem_iff ops).1 h).elim hmem
  unfold shapeOf
  rw [if_neg hany]
  split
  · exact absurd rfl (hri _ _)
  · exact absurd rfl (hrr _ _)
  · rfl

section Checks

variable {p : Params} {k : Mnemonic} {ops : List Operand} {se : SignExtend} {dir : Direction} {m : Mode}

/-- The mode check comes first, whatever the shape (R263, R264). -/
theorem alu_of_reg64 {r : Gpr} (hm : m ≠ .bit64) (hr : .reg r ∈ ops) (h64 : r.cls = .w64) :
    alu p k ops se dir m = .err .modeViolation :=
  if_pos ⟨(any_isReg64_iff ops).2 ⟨r, hr, h64⟩, hm⟩

/-- Bit64, or no 64-bit register in a used port, passes the mode check (R264). -/
theorem modeCheck_passes (hmode : m = .bit64 ∨ ∀ r, .reg r ∈ ops → r.cls ≠ .w64) :
    ¬ (ops.any isReg64 = true ∧ m ≠ .bit64) := by
  rintro ⟨h64, hm⟩
  obtain ⟨r, hr, hcls⟩ := (any_isReg64_iff ops).1 h64
  exact hmode.elim hm fun hnone => hnone r hr hcls

theorem alu_of_mem (hmode : m = .bit64 ∨ ∀ r, .reg r ∈ ops → r.cls ≠ .w64) (hshape : shapeOf ops = .mem) :
    alu p k ops se dir m = .err .notYetSupported := by
  rw [alu, if_neg (modeCheck_passes hmode), hshape]

theorem alu_of_bad (hmode : m = .bit64 ∨ ∀ r, .reg r ∈ ops → r.cls ≠ .w64) (hshape : shapeOf ops = .bad) :
    alu p k ops se dir m = .err .encodingNotRepresentable := by
  rw [alu, if_neg (modeCheck_passes hmode), hshape]

/-- A register and an immediate of widths outside R265. -/
theorem alu_of_riKind_none {d : Gpr} {v : Sized} (hmode : d.cls = .w64 → m = .bit64)
    (hkind : riKind d.cls v.cls se = none) :
    alu p k [.reg d, .imm v] se dir m = .err .encodingNotRepresentable := by
  rw [alu_register_immediate, if_neg fun h => h.2 (hmode h.1), riEncode, hkind]

/-- Two registers of two widths (R270, R271). -/
theorem alu_of_cls_ne {d r : Gpr} (hmode : d.cls = .w64 ∨ r.cls = .w64 → m = .bit64) (hcls : d.cls ≠ r.cls) :
    alu p k [.reg d, .reg r] se dir m = .err .encodingNotRepresentable := by
  rw [alu_register_register, if_neg fun h => h.2 (hmode h.1), rrEncode, if_pos hcls]

end Checks

/-- What a used port holds is one of the operands (R103). -/
theorem exists_usedOperands_mem {n : BitVec 2} {o0 o1 o : Operand}
    (h : (o0 = o ∧ (n = 1 ∨ n = 2)) ∨ (o1 = o ∧ n = 2)) : ∃ ops, usedOperands n o0 o1 = some ops ∧ o ∈ ops := by
  rcases h with ⟨rfl, rfl | rfl⟩ | ⟨rfl, rfl⟩
  · exact ⟨[o0], usedOperands_one o0 o1, by simp⟩
  · exact ⟨[o0, o1], usedOperands_two o0 o1, by simp⟩
  · exact ⟨[o0, o1], usedOperands_two o0 o1, by simp⟩

/-! ### The bytes in numbers (R221, R222, R248, R265, R267) -/

/-- The selector's prefixes, as the statements write them. -/
theorem prefixPart_eq_ite (p : Params) (c : SizeClass) (m : Mode) :
    prefixPart p c m =
      if c = .w64 then [0x48]
      else if (c = .w16 ∧ p.defaultOpsize m = .w32) ∨ (c = .w32 ∧ p.defaultOpsize m = .w16) then [0x66] else [] := by
  split_ifs with h64 hover
  · exact h64 ▸ prefixPart_w64 p m
  · exact prefixPart_of_override hover
  · exact prefixPart_of_no_override h64 hover

theorem opAcc_aluMnemonic (adc : Bool) (c : SizeClass) :
    opAcc (aluNum (aluMnemonic adc)) (wBit c) = (if adc then 0x14 else 0x04) + if c = .w8 then 0 else 1 := by
  rw [opAcc_eq _ c (aluMnemonic_eq adc)]
  cases adc <;> rfl

theorem opGrp1_of_full_eq_add {w iw : SizeClass} {se : SignExtend} (h : riKind w iw se = some .full) :
    opGrp1 (sField w iw se) (wBit w) = 0x80 + if w = .w8 then 0 else 1 := by
  rw [opGrp1_of_full h]
  split <;> rfl

theorem modrm_aluMnemonic (adc : Bool) (r : BitVec 3) :
    modrm [true, true] (aluNum (aluMnemonic adc)) (bitsOf r) = (if adc then 0xD0 else 0xC0) + r.setWidth 8 := by
  cases adc
  · exact modrm_add r
  · exact modrm_adc r

theorem opAluRr_toRM (adc : Bool) (c : SizeClass) :
    opAluRr (aluNum (aluMnemonic adc)) (dBit .toRM) (wBit c) =
      (if adc then 0x10 else 0x00) + if c = .w8 then 0 else 1 := by
  rw [opAluRr_eq _ .toRM c (aluMnemonic_eq adc)]
  cases adc <;> rfl

theorem opAluRr_toReg (adc : Bool) (c : SizeClass) :
    opAluRr (aluNum (aluMnemonic adc)) (dBit .toReg) (wBit c) =
      (if adc then 0x12 else 0x02) + if c = .w8 then 0 else 1 := by
  rw [opAluRr_eq _ .toReg c (aluMnemonic_eq adc)]
  cases adc <;> rfl

/-- The widths admitted are the full ones and the sign-extended ones, and no others (R265). -/
theorem riKind_eq_none {w iw : SizeClass} {se : SignExtend}
    (hfull : ¬ ((iw == w && w != .w64) || (w == .w64 && iw == .w32)) = true)
    (hsext : ¬ (w != .w8 && iw == .w8 && se == .signExtend) = true) : riKind w iw se = none := by
  revert hfull hsext
  cases w <;> cases iw <;> cases se <;> decide

/-! ### The obligations -/

/-- Settles O30: the register is one of the operands in use, and the mode check is the first that `alu` makes. -/
theorem register64NeedsMode64 : Obligations.Register64NeedsMode64 := by
  intro s m k n o0 o1 se dir r hm hk h64 hport
  obtain ⟨ops, hops, hr⟩ := exists_usedOperands_mem hport
  exact drivesError_encode_alu hk hops (alu_of_reg64 hm hr h64)

/-- Settles O31: past the mode check the shape decides, and a memory reference decides the shape. -/
theorem aluShapesOutsideTheFormsFail : Obligations.AluShapesOutsideTheFormsFail :=
  fun _ _ _ _ _ _ _ _ _ hk hops hmode =>
    ⟨fun hmem => drivesError_encode_alu hk hops (alu_of_mem hmode (shapeOf_eq_mem hmem)),
      fun hmem hri hrr => drivesError_encode_alu hk hops (alu_of_bad hmode (shapeOf_eq_bad hmem hri hrr))⟩

/-- Settles O32: each pair of widths is full, sign-extended or not admitted, and the algorithm's bytes for it are
written in numbers. -/
theorem encodeRegisterImmediate : Obligations.EncodeRegisterImmediate := by
  intro s m adc d v se dir hmode full sext pre w o
  have hpre : prefixPart s.params d.cls m = pre := prefixPart_eq_ite s.params d.cls m
  refine ⟨fun ⟨hfull, hcode⟩ => ?short, fun ⟨hfull, hcode⟩ => ?group, fun hsext => ?sext8,
    fun ⟨hfull, hsext⟩ => ?unadmitted⟩
  case short =>
    have hkind : riKind d.cls v.cls se = some .full := riKind_of_full hfull
    have hbytes := drivesBytes_encode_alu (adc := adc) (s := s) (alu_eq_short (dir := dir) hmode hkind hcode)
    rw [hpre, opAcc_aluMnemonic] at hbytes
    rwa [List.append_assoc]
  case group =>
    have hkind : riKind d.cls v.cls se = some .full := riKind_of_full hfull
    have hbytes := drivesBytes_encode_alu (adc := adc) (s := s) (alu_eq_group (dir := dir) hmode hkind fun h => hcode h.2)
    rw [hpre, opGrp1_of_full_eq_add hkind, modrm_aluMnemonic] at hbytes
    rwa [List.append_assoc]
  case sext8 =>
    have hkind : riKind d.cls v.cls se = some .sext8 := riKind_of_sext hsext
    have hbytes := drivesBytes_encode_alu (adc := adc) (s := s) (alu_eq_group (dir := dir) hmode hkind nofun)
    rw [hpre, opGrp1_of_sext8 hkind, modrm_aluMnemonic] at hbytes
    rwa [List.append_assoc]
  case unadmitted =>
    have hkind : riKind d.cls v.cls se = none := riKind_eq_none hfull hsext
    exact drivesError_encode_aluMnemonic (alu_of_riKind_none hmode hkind)

/-- Settles O33: of one width, the direction picks the d bit and the register of the reg field. -/
theorem encodeRegisterRegister : Obligations.EncodeRegisterRegister := by
  intro s m adc d r se dir hmode pre w o
  have hpre : prefixPart s.params d.cls m = pre := prefixPart_eq_ite s.params d.cls m
  have hequal (hcls : d.cls = r.cls) :=
    drivesBytes_encode_alu (adc := adc) (s := s) (alu_eq_registers (se := se) (dir := dir) (hmode ∘ .inl) hcls)
  refine ⟨?toRM, ?toReg, fun hcls => ?widths⟩
  case toRM =>
    rintro ⟨hcls, rfl⟩
    have hbytes := hequal hcls
    rw [hpre, opAluRr_toRM, modrm_registers] at hbytes
    exact hbytes
  case toReg =>
    rintro ⟨hcls, rfl⟩
    have hbytes := hequal hcls
    rw [hpre, opAluRr_toReg, modrm_registers] at hbytes
    exact hbytes
  case widths =>
    exact drivesError_encode_aluMnemonic (alu_of_cls_ne hmode hcls)

/-- Settles O29: ENCODE's algorithm matches on the mode, then on the count, then on the mnemonic. -/
theorem encodeChecksPortCodesInOrder : Obligations.EncodeChecksPortCodesInOrder := by
  intro s mode mn n o0 o1 se dir
  refine ⟨fun hmode => ?mode, fun ⟨hmode, hcount⟩ => ?count, fun ⟨hmode, hcount, hmn⟩ => ?mnemonic⟩
  case mode => exact drivesError_encode (encodeResult_of_no_mode ((Mode.ofCode_eq_none mode).2 hmode))
  case count =>
    obtain ⟨m, hm⟩ := exists_mode_of_code_le hmode
    subst hcount
    exact drivesError_encode (encodeResult_of_no_count hm (usedOperands_three o0 o1))
  case mnemonic =>
    obtain ⟨m, hm⟩ := exists_mode_of_code_le hmode
    obtain ⟨ops, hops⟩ := exists_usedOperands o0 o1 hcount
    exact drivesError_encode (encodeResult_of_no_mnemonic hm hops ((Mnemonic.ofCode_eq_none mn).2 hmn))

/-- Settles O40: each of the ten rows is a form of the 64-bit class, which answers so outside Bit64. -/
theorem rows64FailOutsideMode64 : Obligations.Rows64FailOutsideMode64 := by
  intro s m a b v8 v32 hm
  have hrow (body : ByteSeq) : DrivesError (drive (aluForm s.params .w64 m body) s) s .modeViolation := by
    rw [aluForm_eq, if_pos ⟨rfl, hm⟩]
    exact drivesError_drive .modeViolation s
  simp only [List.forall_mem_cons]
  exact ⟨hrow _, hrow _, hrow _, hrow _, hrow _, hrow _, hrow _, hrow _, hrow _, hrow _, nofun⟩

end Sys2Proof.Machine
end

section
/-! PROOFS. The ASCII-adjust family (45_ascii_adjust_encoders.md): the mode check of R290, the operand lists of
R291–R294, and ENCODE of each mnemonic through its row. -/

namespace Sys2Proof.Machine

/-! ### The operand lists that R291–R294 shut out -/

section Algorithm

variable {k : Mnemonic} {ops : List Operand} {m : Mode}

/-- The mode check comes before any look at the operands (R290). -/
theorem ascii_bit64 (k : Mnemonic) (ops : List Operand) : ascii k ops .bit64 = .err .modeViolation :=
  if_pos rfl

/-- AAA and AAS take no operand (R291, R292). -/
theorem ascii_of_operand (hk : k = .aaa ∨ k = .aas) (hm : m ≠ .bit64) (hops : ops ≠ []) :
    ascii k ops m = .err .encodingNotRepresentable := by
  obtain ⟨o, os, rfl⟩ := List.exists_cons_of_ne_nil hops
  rcases hk with rfl | rfl
  · exact if_neg hm
  · exact if_neg hm

theorem aad_of_no_base (hops : ops ≠ []) (hbase : ∀ b, ops ≠ [.imm (.b8 b)]) :
    aad ops = .err .encodingNotRepresentable := by
  unfold aad
  split
  · exact absurd rfl hops
  · exact absurd rfl (hbase _)
  · rfl

theorem aam_of_no_base (hops : ops ≠ []) (hbase : ∀ b, ops ≠ [.imm (.b8 b)]) :
    aam ops = .err .encodingNotRepresentable := by
  unfold aam
  split
  · exact absurd rfl hops
  · exact absurd rfl (hbase _)
  · rfl

/-- AAD and AAM take one 8-bit immediate or nothing (R293, R294). -/
theorem ascii_of_no_base (hk : k = .aad ∨ k = .aam) (hm : m ≠ .bit64) (hops : ops ≠ [])
    (hbase : ∀ b, ops ≠ [.imm (.b8 b)]) : ascii k ops m = .err .encodingNotRepresentable := by
  rcases hk with rfl | rfl
  · exact (if_neg hm).trans (aad_of_no_base hops hbase)
  · exact (if_neg hm).trans (aam_of_no_base hops hbase)

end Algorithm

/-- A count of 1 or 2 uses an operand port (R103). -/
theorem exists_usedOperands_ne_nil {n : BitVec 2} (o0 o1 : Operand) (h : n = 1 ∨ n = 2) :
    ∃ ops, usedOperands n o0 o1 = some ops ∧ ops ≠ [] := by
  rcases h with rfl | rfl
  · exact ⟨[o0], usedOperands_one o0 o1, by simp⟩
  · exact ⟨[o0, o1], usedOperands_two o0 o1, by simp⟩

/-- Two operands, or one that is no 8-bit immediate, are no base (R103, R293). -/
theorem exists_usedOperands_no_base {n : BitVec 2} {o0 : Operand} (o1 : Operand)
    (h : n = 2 ∨ (n = 1 ∧ ∀ b, o0 ≠ .imm (.b8 b))) :
    ∃ ops, usedOperands n o0 o1 = some ops ∧ ops ≠ [] ∧ ∀ b, ops ≠ [.imm (.b8 b)] := by
  rcases h with rfl | ⟨rfl, hbase⟩
  · exact ⟨[o0, o1], usedOperands_two o0 o1, by simp, by simp⟩
  · exact ⟨[o0], usedOperands_one o0 o1, by simp, by simpa using hbase⟩

/-! ### What a row and its ENCODE drive (R120, R290) -/

/-- A row of the family drives its bytes alone, where the mode defines the family. -/
theorem drivesBytes_asciiForm {m : Mode} {body : ByteSeq} (s : State) (hm : m ≠ .bit64) (hlen : body.length ≤ 15) :
    DrivesBytes (drive (asciiForm m body) s) s body := by
  rw [asciiForm_eq, if_neg hm]
  exact drivesBytes_drive body s hlen

theorem drivesError_asciiForm_bit64 (body : ByteSeq) (s : State) :
    DrivesError (drive (asciiForm .bit64 body) s) s .modeViolation := by
  rw [asciiForm_eq, if_pos rfl]
  exact drivesError_drive .modeViolation s

section Encode

variable {s : State} {k : Mnemonic} {m : Mode} {n : BitVec 2} {o0 o1 : Operand} {se : SignExtend} {dir : Direction}
  {ops : List Operand}

/-- ENCODE of operands that name a row drives the row's bytes. -/
theorem drivesBytes_encode_of_row {i : Instr} {bs : ByteSeq} (hops : usedOperands n o0 o1 = some ops)
    (hform : formOfOperands k m ops se dir = some i) (hrow : DrivesBytes (exec i s) s bs) :
    DrivesBytes (exec (.encode m.code k.code n o0 o1 se dir) s) s bs := by
  rwa [exec_encode_of_formOf s ((formOf_of_used m k n o0 o1 se dir ops hops).trans hform)]

/-- Past its port codes, ENCODE of a mnemonic of the family drives the error that `ascii` answers (R260). -/
theorem drivesError_encode_ascii {e : ErrKind} (hk : k ≠ .adc ∧ k ≠ .add) (hops : usedOperands n o0 o1 = some ops)
    (h : ascii k ops m = .err e) : DrivesError (exec (.encode m.code k.code n o0 o1 se dir) s) s e := by
  refine drivesError_encode ?_
  rw [encodeResult_eq_familyResult s.params m k n o0 o1 se dir ops hops, ← h]
  cases k with
  | adc => exact absurd rfl hk.1
  | add => exact absurd rfl hk.2
  | aaa | aas | aad | aam => rfl

/-- In Bit64 ENCODE of the family fails for its mode, whatever its operands (R290). -/
theorem drivesError_encode_ascii_bit64 (hk : k ≠ .adc ∧ k ≠ .add) (hn : n ≠ 3) :
    DrivesError (exec (.encode Mode.bit64.code k.code n o0 o1 se dir) s) s .modeViolation := by
  obtain ⟨ops, hops⟩ := exists_usedOperands o0 o1 hn
  exact drivesError_encode_ascii hk hops (ascii_bit64 k ops)

end Encode

/-! ### The obligations -/

/-- Settles O34: outside Bit64 the rows drive their byte and ENCODE without an operand is the row. -/
theorem aaaAndAasEmitOneByte : Obligations.AaaAndAasEmitOneByte := by
  intro s m o0 o1 se dir
  refine ⟨fun hm => ?defined, ?bit64⟩
  case defined =>
    have haaa : DrivesBytes (exec (.aaa m) s) s [0x37] := drivesBytes_asciiForm s hm (by simp)
    have haas : DrivesBytes (exec (.aas m) s) s [0x3F] := drivesBytes_asciiForm s hm (by simp)
    refine ⟨haaa, haas, drivesBytes_encode_of_row (k := .aaa) (usedOperands_zero o0 o1) rfl haaa,
      drivesBytes_encode_of_row (k := .aas) (usedOperands_zero o0 o1) rfl haas, fun n hn => ?operand⟩
    obtain ⟨ops, hops, hne⟩ := exists_usedOperands_ne_nil o0 o1 hn
    exact ⟨drivesError_encode_ascii (k := .aaa) (by decide) hops (ascii_of_operand (.inl rfl) hm hne),
      drivesError_encode_ascii (k := .aas) (by decide) hops (ascii_of_operand (.inr rfl) hm hne)⟩
  case bit64 =>
    rintro rfl
    exact ⟨drivesError_asciiForm_bit64 _ s, drivesError_asciiForm_bit64 _ s, fun n hn =>
      ⟨drivesError_encode_ascii_bit64 (k := .aaa) (by decide) hn,
        drivesError_encode_ascii_bit64 (k := .aas) (by decide) hn⟩⟩

/-- Settles O35: outside Bit64 the rows drive their opcode and base, and ENCODE is the row of the base it is given, or
of 10. -/
theorem aadAndAamEmitTheBase : Obligations.AadAndAamEmitTheBase := by
  intro s m o0 o1 base se dir
  refine ⟨fun hm => ?defined, ?bit64⟩
  case defined =>
    have haad (b : Byte) : DrivesBytes (exec (.aadImm8 m b) s) s [0xD5, b] := drivesBytes_asciiForm s hm (by simp)
    have haam (b : Byte) : DrivesBytes (exec (.aamImm8 m b) s) s [0xD4, b] := drivesBytes_asciiForm s hm (by simp)
    refine ⟨haad base, haam base,
      drivesBytes_encode_of_row (k := .aad) (usedOperands_zero o0 o1) rfl (haad 0x0A),
      drivesBytes_encode_of_row (k := .aam) (usedOperands_zero o0 o1) rfl (haam 0x0A),
      drivesBytes_encode_of_row (k := .aad) (usedOperands_one _ o1) rfl (haad base),
      drivesBytes_encode_of_row (k := .aam) (usedOperands_one _ o1) rfl (haam base), fun n hn => ?operands⟩
    obtain ⟨ops, hops, hne, hbase⟩ := exists_usedOperands_no_base o1 hn
    exact ⟨drivesError_encode_ascii (k := .aad) (by decide) hops (ascii_of_no_base (.inl rfl) hm hne hbase),
      drivesError_encode_ascii (k := .aam) (by decide) hops (ascii_of_no_base (.inr rfl) hm hne hbase)⟩
  case bit64 =>
    rintro rfl
    exact ⟨drivesError_asciiForm_bit64 _ s, drivesError_asciiForm_bit64 _ s, fun n hn =>
      ⟨drivesError_encode_ascii_bit64 (k := .aad) (by decide) hn,
        drivesError_encode_ascii_bit64 (k := .aam) (by decide) hn⟩⟩

end Sys2Proof.Machine
end

section
/-! PROOFS. Errors (60_exceptions.md): what raising an error drives (R311), and which operation raises which kind
(R312–R318). -/

namespace Sys2Proof.Machine

/-! ### Raising an error (R52, R311, R312, R320) -/

/-- Settles O1: an error is driven as a result whose ports hold its code alone. -/
theorem errorDrivesItsCodeAndNoPayload : Obligations.ErrorDrivesItsCodeAndNoPayload := by
  intro e s
  obtain ⟨t, hraise, hinp, hparams, hok, herr, hlen, hbytes, hbits, hword⟩ := drivesError_drive e s
  exact ⟨t, hraise, hinp, hparams, hok, hlen, hbytes, hbits, hword, herr.trans (by cases e <;> rfl)⟩

/-- No two kinds share a code (R312). -/
theorem ErrKind.code_injective : Function.Injective ErrKind.code := by
  intro e e'
  cases e <;> cases e' <;> decide

theorem payloadPorts_ok (p : Payload) : (payloadPorts p).ok = 1 := by
  cases p <;> rfl

/-! ### The operations that raise a kind (R312–R318) -/

/-- R312's column "raised by", in the `op` codes of R101; Unsupported comes from any operation (R316). -/
def RaisedBy (op : BitVec 8) : ErrKind → Prop
  | .modeViolation | .notYetSupported => op = 0x30
  | .encodingNotRepresentable => op ∈ ([0x11, 0x1A, 0x30] : List (BitVec 8))
  | .outOfRange => op ∈ ([0x07, 0x08, 0x09, 0x0A] : List (BitVec 8))
  | .invalidArgument => op = 0x0B
  | .unsupported => True

/-- If the result is an error, R312 lists the operation among those that raise its kind. -/
def Result.ErrorRaisedBy (op : BitVec 8) : Result → Prop
  | .ok _ => True
  | .err e => RaisedBy op e

@[simp] theorem errorRaisedBy_ok (op : BitVec 8) (p : Payload) : (Result.ok p).ErrorRaisedBy op := trivial

@[simp] theorem errorRaisedBy_err (op : BitVec 8) (e : ErrKind) : (Result.err e).ErrorRaisedBy op ↔ RaisedBy op e :=
  Iff.rfl

@[simp] theorem raisedBy_unsupported (op : BitVec 8) : RaisedBy op .unsupported := trivial

/-- An operation with one check raises the kind of that check. -/
theorem errorRaisedBy_check {op : BitVec 8} {c : Prop} [Decidable c] {p : Payload} {e : ErrKind} (h : RaisedBy op e) :
    (if c then Result.ok p else .err e).ErrorRaisedBy op := by
  split
  · exact errorRaisedBy_ok op p
  · exact h

/-! #### The operations of R101 but ENCODE -/

theorem errorRaisedBy_encReg3 (op : BitVec 8) (r : RegPort) : (encReg3 r).ErrorRaisedBy op := by
  cases r with
  | sreg c => exact errorRaisedBy_check (raisedBy_unsupported op)
  | gpr | spr | noFile => exact trivial

theorem errorRaisedBy_opsizeOf (op : BitVec 8) (r : RegPort) : (opsizeOf r).ErrorRaisedBy op := by
  cases r <;> exact trivial

theorem errorRaisedBy_wBitReg (op : BitVec 8) (r : RegPort) : (wBitReg r).ErrorRaisedBy op := by
  cases r <;> exact trivial

/-- FS and GS do not fit the 2-bit field; every other error of ENC_SREG2 is a port code's (R191). -/
theorem errorRaisedBy_encSreg2 {op : BitVec 8} (r : RegPort) (h : RaisedBy op .encodingNotRepresentable) :
    (encSreg2 r).ErrorRaisedBy op := by
  cases r with
  | sreg c =>
    dsimp only [encSreg2]
    split_ifs
    · exact trivial
    · exact h
    · exact trivial
  | gpr | spr | noFile => exact trivial

/-- Only a 64-bit displacement is an error (R225). -/
theorem errorRaisedBy_asmDisp {op : BitVec 8} (d : Sized) (h : RaisedBy op .encodingNotRepresentable) :
    (asmDisp d).ErrorRaisedBy op := by
  cases d with
  | b8 | b16 | b32 => exact trivial
  | b64 => exact h

theorem errorRaisedBy_lpfxEmit (op : BitVec 8) (p : Params) (npk : BitVec 3) (kinds : List (BitVec 4)) :
    (lpfxEmit p npk kinds).ErrorRaisedBy op := by
  unfold lpfxEmit
  split
  · exact trivial
  · split <;> exact trivial

/-! #### ENCODE (R260, R263, R290) -/

@[simp] theorem raisedBy_encode_modeViolation : RaisedBy 0x30#8 .modeViolation := rfl

@[simp] theorem raisedBy_encode_notYetSupported : RaisedBy 0x30#8 .notYetSupported := rfl

@[simp] theorem raisedBy_encode_encodingNotRepresentable : RaisedBy 0x30#8 .encodingNotRepresentable := by
  simp [RaisedBy]

theorem errorRaisedBy_riEncode (p : Params) (k : Mnemonic) (d : Gpr) (v : Sized) (se : SignExtend) (m : Mode) :
    (riEncode p k d v se m).ErrorRaisedBy 0x30 := by
  unfold riEncode
  split
  · simp
  · split <;> simp

theorem errorRaisedBy_rrEncode (p : Params) (k : Mnemonic) (d r : Gpr) (dir : Direction) (m : Mode) :
    (rrEncode p k d r dir m).ErrorRaisedBy 0x30 := by
  unfold rrEncode
  split <;> simp

theorem errorRaisedBy_alu (p : Params) (k : Mnemonic) (ops : List Operand) (se : SignExtend) (dir : Direction)
    (m : Mode) : (alu p k ops se dir m).ErrorRaisedBy 0x30 := by
  unfold alu
  split
  · simp
  · split
    · simp
    · simp
    · exact errorRaisedBy_riEncode _ _ _ _ _ _
    · exact errorRaisedBy_rrEncode _ _ _ _ _ _

theorem errorRaisedBy_ascii (k : Mnemonic) (ops : List Operand) (m : Mode) : (ascii k ops m).ErrorRaisedBy 0x30 := by
  unfold ascii
  split
  · simp
  · cases k with
    | aaa => dsimp only; unfold aaa; split <;> simp
    | aas => dsimp only; unfold aas; split <;> simp
    | aad => dsimp only; unfold aad; split <;> simp
    | aam => dsimp only; unfold aam; split <;> simp
    | adc | add => simp

theorem errorRaisedBy_encodeResult (p : Params) (mode : BitVec 3) (mn : BitVec 8) (n : BitVec 2) (o0 o1 : Operand)
    (se : SignExtend) (dir : Direction) : (encodeResult p mode mn n o0 o1 se dir).ErrorRaisedBy 0x30 := by
  unfold encodeResult
  split
  · simp
  · split
    · simp
    · split
      case h_1 | h_2 => exact errorRaisedBy_alu _ _ _ _ _ _
      case h_3 | h_4 | h_5 | h_6 => exact errorRaisedBy_ascii _ _ _
      case h_7 => simp

/-! #### A step -/

/-- An ENCODE step, whichever row its ports name, drives what the algorithm answers (R260). -/
theorem step_of_op_encode (s : State) (hop : s.inp.op = 0x30) :
    step s = drive (encodeResult s.params s.inp.mode s.inp.mn s.inp.nopnd s.inp.opnd0 s.inp.opnd1 s.inp.se s.inp.dir)
      s :=
  encodeAgreesWithItsRow.2 s hop

/-- Every step drives a result that R312 allows its `op` code. -/
theorem step_errorRaisedBy (s : State) : ∃ r : Result, r.ErrorRaisedBy s.inp.op ∧ step s = drive r s := by
  cases hd : decodeRequest s.inp with
  | error e => exact ⟨.err .unsupported, raisedBy_unsupported s.inp.op, step_of_decode_error s e hd⟩
  | ok i =>
    have hstep := step_of_decode_ok s i hd
    unfold decodeRequest at hd
    split at hd <;> cases hd <;> rename_i hop
    -- GETBIT, SETBIT, COPYBIT and COPYBITS; PACKBITS
    case h_7 | h_8 | h_9 | h_10 => exact ⟨_, errorRaisedBy_check (e := .outOfRange) (by simp [RaisedBy, hop]), hstep⟩
    case h_11 => exact ⟨_, errorRaisedBy_check (e := .invalidArgument) hop, hstep⟩
    -- ENC_REG3, ENC_SREG2, OPSIZE_OF and W_BIT_REG
    case h_13 => exact ⟨_, errorRaisedBy_encReg3 _ s.inp.reg, hstep⟩
    case h_14 => exact ⟨_, errorRaisedBy_encSreg2 s.inp.reg (by simp [RaisedBy, hop]), hstep⟩
    case h_15 => exact ⟨_, errorRaisedBy_opsizeOf _ s.inp.reg, hstep⟩
    case h_17 => exact ⟨_, errorRaisedBy_wBitReg _ s.inp.reg, hstep⟩
    -- ASM_DISP, LPFX_EMIT and ENCODE
    case h_23 => exact ⟨_, errorRaisedBy_asmDisp _ (by simp [RaisedBy, hop]), hstep⟩
    case h_25 => exact ⟨_, errorRaisedBy_lpfxEmit _ _ _ _, hstep⟩
    case h_27 => exact ⟨_, hop ▸ errorRaisedBy_encodeResult _ _ _ _ _ _ _ _, step_of_op_encode s hop⟩
    -- the operations that raise nothing
    all_goals exact ⟨.ok _, trivial, hstep⟩

/-- Settles O54: an error on the ports is the driven result's, whose kind the code tells, and R312 lists the operation
for that kind. -/
theorem errorsComeFromTheirOperations : Obligations.ErrorsComeFromTheirOperations := by
  intro s t hst hok
  obtain ⟨r, hr, hstep⟩ := step_errorRaisedBy s
  obtain rfl : t = { s with out := resultPorts r } := (drive_eq_next r s t).1 (hstep ▸ hst)
  cases r with
  | ok p => exact absurd ((payloadPorts_ok p).symm.trans hok) (by decide)
  | err e =>
    have hkind (k : ErrKind) (hcode : e.code = k.code) : RaisedBy s.inp.op k := ErrKind.code_injective hcode ▸ hr
    exact ⟨hkind .modeViolation, hkind .encodingNotRepresentable, hkind .notYetSupported, hkind .outOfRange,
      hkind .invalidArgument⟩

end Sys2Proof.Machine
end

section
/-! PROOFS. The length of a byte result of ENCODE (30_encoding.md rule R118) and the state after power-on
(70_reset_and_hazards.md section 1). -/

namespace Sys2Proof.Machine

/-! ### The length of the admitted forms (R118) -/

/-- A row emits its opcode, at most one byte before it and at most five after it. -/
theorem length_of_isRowResult {m : Mode} {bs : ByteSeq} (h : IsRowResult m (.ok (.bytes bs))) :
    1 ≤ bs.length ∧ bs.length ≤ 7 := by
  obtain herr | ⟨pre, op, tail, hbytes, hpre, -, -, htail⟩ := h
  · cases herr
  · cases hbytes
    have hone : pre.length ≤ 1 := by rcases hpre with rfl | rfl | ⟨rfl, -⟩ <;> simp
    rw [List.length_append, List.length_cons]
    omega

/-- Only a byte result puts a value on `bytes_out` (R51, R52). -/
theorem eq_bytes_of_bytesOut_resultPorts {r : Result} {bs : ByteSeq} (h : (resultPorts r).bytesOut = some bs) :
    r = .ok (.bytes bs) := by
  cases r with
  | err e => cases h
  | ok payload =>
    cases payload with
    | bytes bs' => cases h; rfl
    | bits | word16 | word32 | word64 | size | group => cases h

/-- The bytes that ENCODE leaves on its port are a row's (R275). -/
theorem isRowResult_of_exec_encode {mode : BitVec 3} {mn : BitVec 8} {n : BitVec 2} {o0 o1 : Operand}
    {se : SignExtend} {dir : Direction} {s t : State} {bs : ByteSeq}
    (hexec : exec (.encode mode mn n o0 o1 se dir) s = .next t) (hbs : t.out.bytesOut = some bs) :
    ∃ m, IsRowResult m (.ok (.bytes bs)) := by
  obtain ⟨e, he⟩ | ⟨-, m, r, -, -, -, hrow, hencode, -⟩ := exec_encode_cases mode mn n o0 o1 se dir s
  · obtain rfl := (drive_eq_next (.err e) s t).1 (he ▸ hexec)
    cases hbs
  · obtain rfl := (drive_eq_next r s t).1 (hencode ▸ hexec)
    exact ⟨m, eq_bytes_of_bytesOut_resultPorts hbs ▸ hrow⟩

/-- Settles O43: a byte result of ENCODE is a row's, and R118 bounds the rows. -/
theorem encodeEmitsAtMostSevenBytes : Obligations.EncodeEmitsAtMostSevenBytes := by
  intro mode mn n o0 o1 se dir s t bs hexec hbs
  obtain ⟨m, hrow⟩ := isRowResult_of_exec_encode hexec hbs
  exact length_of_isRowResult hrow

/-! ### The state after power-on -/

/-- The request after power-on names no operation: its `op` code is 0 (R102). -/
theorem decodeRequest_reset : decodeRequest State.reset.inp = .error (.unassignedOp 0) := rfl

/-- Settles O52: the idle request fits its ports, and the outputs hold the Unsupported that a step drives for it. -/
theorem powerOnMeetsThePortInvariant : Obligations.PowerOnMeetsThePortInvariant := by
  have houtput : State.reset.out = errPorts .unsupported := rfl
  have hrequest : State.reset.inp.wf State.reset.params = true :=
    Laws.EncodeFits.wf_of_slots _ _ rfl rfl
  have hdrive : drive (.err .unsupported) State.reset = .next State.reset := (drive_eq_next _ _ _).2 rfl
  exact ⟨⟨rfl, hrequest, .inl (houtput ▸ isError_errPorts .unsupported)⟩,
    (step_of_decode_error State.reset _ decodeRequest_reset).trans hdrive⟩

end Sys2Proof.Machine
end
